-- ==== Sys2Proof/Word.lean ====
section
/-! DEFINITION. The word types of the PAC (spec 00_scope.md rules R9, R12). -/

namespace Sys2Proof

/-- One byte: an asset byte, a framebuffer byte, the descriptor's `OP` and `V` fields. -/
abbrev Byte := BitVec 8

/-- A coordinate, size, radius or length operand: `CW = 16` bits, unsigned (R9, R87). -/
abbrev Coord := BitVec 16

/-- An asset-memory address: `AW = 32` bits (R9, R54). -/
abbrev Addr := BitVec 32

/-- An operation descriptor: `DW = 128` bits (R9, R80). -/
abbrev Descriptor := BitVec 128

/-- A coordinate pair `(x, y)`. -/
abbrev Point := Coord × Coord

end Sys2Proof
end

