-- ==== Sys2Proof/Syntax.lean ====
section
/-! DEFINITION. The operations of the PAC: one constructor per row of spec/opcode_table.json (30_encoding.md rule R82),
with the operands that rule gives it, each at the width of its descriptor field (R80, R87). -/

namespace Sys2Proof

/-- The 18 operations. -/
inductive Instr where
  /-- `SETPX`, `OP = 0x01` (R112). -/
  | setpx (x y : Coord) (value : Byte)
  /-- `FILL`, `OP = 0x02` (R113). -/
  | fill (value : Byte)
  /-- `CLEAR`, `OP = 0x03` (R114). -/
  | clear
  /-- `LINE`, `OP = 0x10` (R132). -/
  | line (x0 y0 x1 y1 : Coord) (colour : Byte)
  /-- `RECT`, `OP = 0x11` (R133). -/
  | rect (xStart yStart xEnd yEnd : Coord) (colour : Byte)
  /-- `RECTF`, `OP = 0x12` (R134). -/
  | rectf (xStart yStart xEnd yEnd : Coord) (colour : Byte)
  /-- `CIRC`, `OP = 0x13` (R136). -/
  | circ (x0 y0 radius : Coord) (colour : Byte)
  /-- `CIRCF`, `OP = 0x14` (R137). -/
  | circf (x0 y0 radius : Coord) (colour : Byte)
  /-- `ICON`, `OP = 0x15` (R138). -/
  | icon (x y width height : Coord) (colour : Byte) (words : Addr)
  /-- `SETFONT`, `OP = 0x20` (R163). -/
  | setfont (font : Addr)
  /-- `GLYPH`, `OP = 0x21` (R166); the character is `C[7:0]` (R87). -/
  | glyph (xPos yPos : Coord) (char : Byte) (colour : Byte)
  /-- `WSTR`, `OP = 0x22` (R167). -/
  | wstr (xPos yPos : Coord) (colour : Byte) (length : Coord) (text : Addr)
  /-- `STRB`, `OP = 0x23` (R168). -/
  | strb (length : Coord) (text : Addr)
  /-- `JUST`, `OP = 0x24` (R169); the mode is the whole of `V` (R87). -/
  | just (containerWidth containerHeight : Coord) (mode : Byte)
  /-- `OPEN`, `OP = 0x30` (R194). -/
  | openDisplay (channel : Byte) (initLength : Coord) (initPayload : Addr)
  /-- `SYNC`, `OP = 0x31` (R195). -/
  | sync
  /-- `CLOSE`, `OP = 0x32` (R196). -/
  | close (cleanFlag : Byte)
  /-- `RESET`, `OP = 0x33`, reserved (R86, R197). -/
  | reset (flag : Byte)
deriving DecidableEq, Repr

/-- `FLUSH` is another name for SYNC (R90). -/
def Instr.flush : Instr := .sync

/-- `PIXON x, y` is `SETPX x, y, 1` (R90). -/
def Instr.pixon (x y : Coord) : Instr := .setpx x y 1

/-- `PIXOFF x, y` is `SETPX x, y, 0` (R90). -/
def Instr.pixoff (x y : Coord) : Instr := .setpx x y 0

/-- `NOFONT` is `SETFONT 0` (R90). -/
def Instr.nofont : Instr := .setfont 0

end Sys2Proof
end

