-- ==== Sys2Proof/Decode.lean ====
section
/-! DEFINITION. The decoder and, after it, the encoder, both from 30_encoding.md rules R80 to R89. -/

namespace Sys2Proof

/-- Why a descriptor is no operation. -/
inductive Reject where
  /-- The `OP` value is not assigned (R85). -/
  | unassignedOpcode (op : Byte)
  /-- A byte-wide port carried another number of bytes than the 16 of a descriptor (R81). -/
  | notADescriptor (bytes : Nat)
deriving DecidableEq, Repr

/-! ### The fields of a descriptor (R80) -/

/-- `OP = W[7:0]`. -/
def fieldOp (w : Descriptor) : Byte := w.extractLsb' 0 8
/-- `V = W[15:8]`. -/
def fieldV (w : Descriptor) : Byte := w.extractLsb' 8 8
/-- `A = W[31:16]`. -/
def fieldA (w : Descriptor) : Coord := w.extractLsb' 16 16
/-- `B = W[47:32]`. -/
def fieldB (w : Descriptor) : Coord := w.extractLsb' 32 16
/-- `C = W[63:48]`. -/
def fieldC (w : Descriptor) : Coord := w.extractLsb' 48 16
/-- `D = W[79:64]`. -/
def fieldD (w : Descriptor) : Coord := w.extractLsb' 64 16
/-- `L = W[95:80]`. -/
def fieldL (w : Descriptor) : Coord := w.extractLsb' 80 16
/-- `P = W[127:96]`. -/
def fieldP (w : Descriptor) : Addr := w.extractLsb' 96 32
/-- The character operand of GLYPH, `C[7:0]`; `C[15:8]` is ignored (R87). -/
def fieldChar (w : Descriptor) : Byte := (fieldC w).extractLsb' 0 8

/-! ### Decoding -/

/-- Decoding looks at `OP` alone (R83); the fields an operation does not use are ignored (R84); every `OP` value that
rule R82 does not list is rejected (R85). -/
def decode (w : Descriptor) : Except Reject Instr :=
  match (fieldOp w).toNat with
  | 0x01 => .ok (.setpx (fieldA w) (fieldB w) (fieldV w))
  | 0x02 => .ok (.fill (fieldV w))
  | 0x03 => .ok .clear
  | 0x10 => .ok (.line (fieldA w) (fieldB w) (fieldC w) (fieldD w) (fieldV w))
  | 0x11 => .ok (.rect (fieldA w) (fieldB w) (fieldC w) (fieldD w) (fieldV w))
  | 0x12 => .ok (.rectf (fieldA w) (fieldB w) (fieldC w) (fieldD w) (fieldV w))
  | 0x13 => .ok (.circ (fieldA w) (fieldB w) (fieldC w) (fieldV w))
  | 0x14 => .ok (.circf (fieldA w) (fieldB w) (fieldC w) (fieldV w))
  | 0x15 => .ok (.icon (fieldA w) (fieldB w) (fieldC w) (fieldD w) (fieldV w) (fieldP w))
  | 0x20 => .ok (.setfont (fieldP w))
  | 0x21 => .ok (.glyph (fieldA w) (fieldB w) (fieldChar w) (fieldV w))
  | 0x22 => .ok (.wstr (fieldA w) (fieldB w) (fieldV w) (fieldL w) (fieldP w))
  | 0x23 => .ok (.strb (fieldL w) (fieldP w))
  | 0x24 => .ok (.just (fieldA w) (fieldB w) (fieldV w))
  | 0x30 => .ok (.openDisplay (fieldV w) (fieldL w) (fieldP w))
  | 0x31 => .ok .sync
  | 0x32 => .ok (.close (fieldV w))
  | 0x33 => .ok (.reset (fieldV w))
  | _ => .error (.unassignedOpcode (fieldOp w))

/-- Byte `n` of the descriptor on a byte-wide command port: least significant byte first (R81). -/
def portByte (w : Descriptor) (n : Nat) : Byte := w.extractLsb' (8 * n) 8

/-- The 16 bytes of a descriptor on a byte-wide command port, in the order they travel (R81). -/
def portBytes (w : Descriptor) : List Byte := (List.range 16).map (portByte w)

/-- A number from its bytes, the least significant first (R81). -/
def natOfBytes : List Byte → Nat
  | [] => 0
  | b :: rest => b.toNat + 256 * natOfBytes rest

/-- The descriptor that 16 port bytes carry (R81). -/
def descriptorOfBytes (bytes : List Byte) : Except Reject Descriptor :=
  if bytes.length = 16 then .ok (BitVec.ofNat 128 (natOfBytes bytes)) else .error (.notADescriptor bytes.length)

/-- The operation that the bytes of a byte-wide command port stand for (R81). -/
def decodeBytes (bytes : List Byte) : Except Reject Instr :=
  match descriptorOfBytes bytes with
  | .ok w => decode w
  | .error r => .error r

/-- The descriptor whose low `nbits` bits are `w`, every bit above them 0. -/
def tableDescriptor (nbits w : Nat) : Descriptor := BitVec.ofNat 128 (w % 2 ^ nbits)

/-- The host's question: the operation the decoder reads from the descriptor whose low `nbits` bits are `w`, laid out
as its 16 port bytes (R81). -/
def decodeTableWord (nbits w : Nat) : Option Instr :=
  match decodeBytes (portBytes (tableDescriptor nbits w)) with
  | .ok i => some i
  | .error _ => none

/-! ### Encoding -/

/-- The `OP` value of an operation (R82). -/
def Instr.opcode : Instr → Byte
  | .setpx _ _ _ => 0x01
  | .fill _ => 0x02
  | .clear => 0x03
  | .line _ _ _ _ _ => 0x10
  | .rect _ _ _ _ _ => 0x11
  | .rectf _ _ _ _ _ => 0x12
  | .circ _ _ _ _ => 0x13
  | .circf _ _ _ _ => 0x14
  | .icon _ _ _ _ _ _ => 0x15
  | .setfont _ => 0x20
  | .glyph _ _ _ _ => 0x21
  | .wstr _ _ _ _ _ => 0x22
  | .strb _ _ => 0x23
  | .just _ _ _ => 0x24
  | .openDisplay _ _ _ => 0x30
  | .sync => 0x31
  | .close _ => 0x32
  | .reset _ => 0x33

/-- The fields laid side by side, `P` the most significant and `OP` the least (R80). -/
def packFields (op v : Byte) (a b c d l : Coord) (p : Addr) : Descriptor :=
  p ++ l ++ d ++ c ++ b ++ a ++ v ++ op

/-- The descriptor of an operation; the fields it does not use are written zero, as assemblers do (R82, R84). -/
def encode (i : Instr) : Descriptor :=
  match i with
  | .setpx x y v => packFields i.opcode v x y 0 0 0 0
  | .fill v => packFields i.opcode v 0 0 0 0 0 0
  | .clear => packFields i.opcode 0 0 0 0 0 0 0
  | .line x0 y0 x1 y1 v => packFields i.opcode v x0 y0 x1 y1 0 0
  | .rect x0 y0 x1 y1 v => packFields i.opcode v x0 y0 x1 y1 0 0
  | .rectf x0 y0 x1 y1 v => packFields i.opcode v x0 y0 x1 y1 0 0
  | .circ x0 y0 r v => packFields i.opcode v x0 y0 r 0 0 0
  | .circf x0 y0 r v => packFields i.opcode v x0 y0 r 0 0 0
  | .icon x y w h v p => packFields i.opcode v x y w h 0 p
  | .setfont p => packFields i.opcode 0 0 0 0 0 0 p
  | .glyph x y ch v => packFields i.opcode v x y (ch.setWidth 16) 0 0 0
  | .wstr x y v l p => packFields i.opcode v x y 0 0 l p
  | .strb l p => packFields i.opcode 0 0 0 0 0 l p
  | .just w h m => packFields i.opcode m w h 0 0 0 0
  | .openDisplay ch l p => packFields i.opcode ch 0 0 0 0 l p
  | .sync => packFields i.opcode 0 0 0 0 0 0 0
  | .close v => packFields i.opcode v 0 0 0 0 0 0
  | .reset v => packFields i.opcode v 0 0 0 0 0 0

/-- The 16 bytes of an operation on a byte-wide command port (R81). -/
def encodeBytes (i : Instr) : List Byte := portBytes (encode i)

/-- The bits of the descriptor that the operation with this `OP` value uses: 1 in each bit of `OP` and of the fields
rule R82 lists for it, 0 in the bits that are ignored (R84). -/
def usedBits (op : Byte) : Descriptor :=
  match op.toNat with
  | 0x01 => packFields 0xFF 0xFF 0xFFFF 0xFFFF 0 0 0 0
  | 0x02 => packFields 0xFF 0xFF 0 0 0 0 0 0
  | 0x03 => packFields 0xFF 0 0 0 0 0 0 0
  | 0x10 => packFields 0xFF 0xFF 0xFFFF 0xFFFF 0xFFFF 0xFFFF 0 0
  | 0x11 => packFields 0xFF 0xFF 0xFFFF 0xFFFF 0xFFFF 0xFFFF 0 0
  | 0x12 => packFields 0xFF 0xFF 0xFFFF 0xFFFF 0xFFFF 0xFFFF 0 0
  | 0x13 => packFields 0xFF 0xFF 0xFFFF 0xFFFF 0xFFFF 0 0 0
  | 0x14 => packFields 0xFF 0xFF 0xFFFF 0xFFFF 0xFFFF 0 0 0
  | 0x15 => packFields 0xFF 0xFF 0xFFFF 0xFFFF 0xFFFF 0xFFFF 0 0xFFFFFFFF
  | 0x20 => packFields 0xFF 0 0 0 0 0 0 0xFFFFFFFF
  | 0x21 => packFields 0xFF 0xFF 0xFFFF 0xFFFF 0x00FF 0 0 0
  | 0x22 => packFields 0xFF 0xFF 0xFFFF 0xFFFF 0 0 0xFFFF 0xFFFFFFFF
  | 0x23 => packFields 0xFF 0 0 0 0 0 0xFFFF 0xFFFFFFFF
  | 0x24 => packFields 0xFF 0xFF 0xFFFF 0xFFFF 0 0 0 0
  | 0x30 => packFields 0xFF 0xFF 0 0 0 0 0xFFFF 0xFFFFFFFF
  | 0x31 => packFields 0xFF 0 0 0 0 0 0 0
  | 0x32 => packFields 0xFF 0xFF 0 0 0 0 0 0
  | 0x33 => packFields 0xFF 0xFF 0 0 0 0 0 0
  | _ => packFields 0xFF 0 0 0 0 0 0 0

/-! ### The assembler text (R89) -/

/-- The mnemonic of an operation (R82). -/
def Instr.mnemonic : Instr → String
  | .setpx _ _ _ => "SETPX"
  | .fill _ => "FILL"
  | .clear => "CLEAR"
  | .line _ _ _ _ _ => "LINE"
  | .rect _ _ _ _ _ => "RECT"
  | .rectf _ _ _ _ _ => "RECTF"
  | .circ _ _ _ _ => "CIRC"
  | .circf _ _ _ _ => "CIRCF"
  | .icon _ _ _ _ _ _ => "ICON"
  | .setfont _ => "SETFONT"
  | .glyph _ _ _ _ => "GLYPH"
  | .wstr _ _ _ _ _ => "WSTR"
  | .strb _ _ => "STRB"
  | .just _ _ _ => "JUST"
  | .openDisplay _ _ _ => "OPEN"
  | .sync => "SYNC"
  | .close _ => "CLOSE"
  | .reset _ => "RESET"

/-- The operands in the order of the assembler text: `A, B, C, D`, then `V`, then `L`, then `P` (R89). -/
def Instr.operands : Instr → List Nat
  | .setpx x y v => [x.toNat, y.toNat, v.toNat]
  | .fill v => [v.toNat]
  | .clear => []
  | .line x0 y0 x1 y1 v => [x0.toNat, y0.toNat, x1.toNat, y1.toNat, v.toNat]
  | .rect x0 y0 x1 y1 v => [x0.toNat, y0.toNat, x1.toNat, y1.toNat, v.toNat]
  | .rectf x0 y0 x1 y1 v => [x0.toNat, y0.toNat, x1.toNat, y1.toNat, v.toNat]
  | .circ x0 y0 r v => [x0.toNat, y0.toNat, r.toNat, v.toNat]
  | .circf x0 y0 r v => [x0.toNat, y0.toNat, r.toNat, v.toNat]
  | .icon x y w h v p => [x.toNat, y.toNat, w.toNat, h.toNat, v.toNat, p.toNat]
  | .setfont p => [p.toNat]
  | .glyph x y ch v => [x.toNat, y.toNat, ch.toNat, v.toNat]
  | .wstr x y v l p => [x.toNat, y.toNat, v.toNat, l.toNat, p.toNat]
  | .strb l p => [l.toNat, p.toNat]
  | .just w h m => [w.toNat, h.toNat, m.toNat]
  | .openDisplay ch l p => [ch.toNat, l.toNat, p.toNat]
  | .sync => []
  | .close v => [v.toNat]
  | .reset v => [v.toNat]

end Sys2Proof
end

