-- ==== Sys2Proof/Config.lean ====
section
/-! DEFINITION. The parameters of a PAC instance (00_scope.md rules R9, R10) and the free values. -/

namespace Sys2Proof

/-- `GLYPH_OFFSET_UNIT`: what one unit of a glyph's `bitmapOffset` spans (R9, R165, conflict C2). -/
inductive OffsetUnit where
  /-- 8 stream bits, the spec's default: `bitmapOffset` is a byte offset. -/
  | byteOffset
  /-- 1 stream bit: `bitmapOffset` is a bit offset. -/
  | bitOffset
deriving DecidableEq, Repr, Inhabited

/-- The parameters of one instance, legal by construction: every value of this type is an instance that rule R10
admits and every instance R10 admits is a value of it, so that a zero dimension or a height that is no multiple of 8
cannot be written (R10, U7, U8; log 2). -/
structure Config where
  /-- `WIDTH - 1`, so that `1 <= WIDTH <= 32768` (R10). -/
  lastColumn  : Fin 32768
  /-- `HEIGHT / 8 - 1`, so that `8 <= HEIGHT <= 32768` and `HEIGHT mod 8 = 0` (R10). -/
  lastPage    : Fin 4096
  /-- `SEL_CMD`, the selector byte of a Command frame (R9, R191). -/
  selCmd      : Byte
  /-- How far `SEL_DATA` lies above `SEL_CMD + 1`, so that `SEL_DATA != SEL_CMD` (R9). -/
  selGap      : Fin 255
  /-- `CURSOR_RESET`, the payload of the cursor-reset Command frame (R9, R193). -/
  cursorReset : List Byte
  /-- `GLYPH_OFFSET_UNIT` (R9, R165). -/
  offsetUnit  : OffsetUnit
deriving DecidableEq, Repr, Inhabited

/-- The stream bits one unit of `bitmapOffset` spans (R9). -/
def OffsetUnit.bits : OffsetUnit → Nat
  | .byteOffset => 8
  | .bitOffset => 1

/-- `WIDTH` (R9). -/
def Config.width (c : Config) : Nat := c.lastColumn.val + 1

/-- `HEIGHT` (R9). -/
def Config.height (c : Config) : Nat := 8 * (c.lastPage.val + 1)

/-- `N = WIDTH * HEIGHT / 8`, the framebuffer's length in bytes (R9, R21). -/
def Config.frameBytes (c : Config) : Nat := c.width * c.height / 8

/-- `SEL_DATA`, the selector byte of a Data frame (R9, R191). -/
def Config.selData (c : Config) : Byte := c.selCmd + BitVec.ofNat 8 (c.selGap.val + 1)

/-- The parameters of the instance that `State.reset` describes. The spec leaves every one of them OPEN (R9, P1 to P6),
so this constant has no body: nothing can be proved of it but what holds of every `Config` (log 1, safe). -/
opaque Config.platform : Config

/-- What byte `i` of the framebuffer holds after the `k`-th reset: unspecified but stable (R35, U2, P9). A free value,
no body: a draw taken once at each reset (log 4, safe). -/
opaque Config.frameDraw (k i : Nat) : Byte

end Sys2Proof
end

