-- ==== Sys2Proof/Machine/Memory.lean ====
section
/-! DEFINITION. Byte memories as lists of cells in one canonical form: addresses strictly rising and no cell that holds
what an unlisted address reads as, so that equal memories are equal lists. Used for the framebuffer `FB` (R21) and for
the asset memory `ASSET` (R54). -/

namespace Sys2Proof.Machine

/-- A memory: its listed cells, addresses rising. -/
abbrev Memory := List Host.Cell

/-- What an address with no cell reads as. For `FB` this is only how a 0 byte is written down (its content at reset is
a free draw, log 4); for `ASSET` it is the platform's matter, fixed at 0x00 (DESIGN CHOICE, unsafe; log 3). -/
def unlistedByte : Byte := 0

/-- The byte at an address. -/
def Memory.read : Memory → Nat → Byte
  | [], _ => unlistedByte
  | (k, b) :: rest, a => if a < k then unlistedByte else if a = k then b else Memory.read rest a

/-- The memory after one byte is written; the canonical form is kept (`memory_write_wf`). -/
def Memory.write : Memory → Nat → Byte → Memory
  | [], a, v => if v = unlistedByte then [] else [(a, v)]
  | (k, b) :: rest, a, v =>
    if a < k then (if v = unlistedByte then (k, b) :: rest else (a, v) :: (k, b) :: rest)
    else if a = k then (if v = unlistedByte then rest else (a, v) :: rest)
    else (k, b) :: Memory.write rest a v

/-- The memory whose byte `i` is `f i` for every `i < n`, and which lists nothing from `n` on. -/
def Memory.ofFn (n : Nat) (f : Nat → Byte) : Memory :=
  ((List.range n).map fun i => (i, f i)).filter fun c => decide (c.2 ≠ unlistedByte)

/-- The canonical form. -/
abbrev Memory.wf (m : Memory) : Prop :=
  m.Pairwise (fun p q => p.1 < q.1) ∧ ∀ c ∈ m, c.2 ≠ unlistedByte

/-- Every cell lies below `n`. -/
abbrev Memory.within (m : Memory) (n : Nat) : Prop := ∀ c ∈ m, c.1 < n

end Sys2Proof.Machine
end

