-- ==== Sys2Proof/Machine/State.lean ====
section
/-! DEFINITION. The state of the PAC as plain data: all the state of 10_state.md rule R20, the parameters that rules R9
and R36 fix for an execution, what one unfinished framer operation holds (R33, R199), and the environment's inputs and
outputs (R7, R14). -/

namespace Sys2Proof.Machine

/-- Why the machine stops with a fault. There is no constructor: the PAC has no trap mechanism (R220), no framebuffer
access fault (R64) and no asset access fault (R54); every failure is a no-op with a result code (R223). That nothing can
raise a fault is safe: the spec gives every operation its effect. -/
inductive Fault where
deriving DecidableEq, Repr

/-- Why an operation has no meaning. -/
inductive Refusal where
  /-- Raised by `exec` for an operation whose meaning is not written. Safe: nothing is claimed of it. No arm of `exec`
  raises it: all 18 operations have their meaning. -/
  | notModelled (mnemonic : String)
deriving DecidableEq, Repr

/-- `PSTATE`, the lifecycle state of the framer unit (R22). -/
inductive Lifecycle where
  /-- `Closed` = 0. -/
  | closed
  /-- `Initializing` = 1, held only inside an OPEN. -/
  | initializing
  /-- `Ready` = 2. -/
  | ready
deriving DecidableEq, Repr

/-- A result code, the content of `STATUS.LAST` (R26, R221). -/
inductive ResultCode where
  /-- 0: the operation ran to its end and no frame was short. -/
  | ok
  /-- 1: no transport bound. -/
  | channelUnavailable
  /-- 2: no font bound. -/
  | invalidReference
  /-- 3: some frame was answered with a wrong count. -/
  | transferSizeMismatch
  /-- 4: an unassigned `OP`, RESET, or JUST with a mode above 2. -/
  | illegalOperation
  /-- 5: OPEN while a session is open. -/
  | badState
deriving DecidableEq, Repr

/-- What the channel sees and says, in the order it happens (R14 (a), log 9). -/
inductive ChannelEvent where
  /-- `ChWrite(ch, frame)`: one whole frame in one channel write (R192, R201). -/
  | write (ch : Byte) (frame : List Byte)
  /-- The channel's answer to the write before it: the number of bytes transferred (R192). -/
  | answer (count : Nat)
  /-- `ChRelease(ch)`: the borrowed channel is handed back (R196). -/
  | release (ch : Byte)
deriving DecidableEq, Repr

/-- The frames the framer sends (R193, R194). -/
inductive FrameKind where
  /-- The device-init payload as one Command frame: `length` bytes from asset address `payload` (R194). -/
  | init (payload : Addr) (length : Coord)
  /-- The cursor-reset Command frame (R193). -/
  | cursor
  /-- The whole framebuffer as one Data frame (R193). -/
  | buffer
deriving DecidableEq, Repr

/-- The actions a framer operation is made of, in the order of its rule (R194 to R196). -/
inductive FramerAction where
  /-- `EmitFrame` of one frame (R192). -/
  | send (frame : FrameKind)
  /-- `FillAll(0)` (R117). -/
  | blank
  /-- `PSTATE <- Ready` (R194). -/
  | ready
  /-- `ChRelease(CH); CH <- 0; PSTATE <- Closed` (R196). -/
  | release
deriving DecidableEq, Repr

/-- A framer operation whose last `ChWrite` has no answer yet (R192, R199): how many bytes the answer should count, what
is still to do after it, and the operation's `mismatch` latch (R198). -/
structure Framing where
  /-- The length of the frame that was written. -/
  awaited   : Nat
  /-- The actions that follow the answer. -/
  remaining : List FramerAction
  /-- Whether an earlier frame of the operation was answered with a wrong count. -/
  mismatch  : Bool
deriving DecidableEq, Repr

/-- The state of the PAC and of its environment. -/
structure State where
  /-- The parameters of the instance (R9, R27, R36); nothing writes them (log 1). -/
  cfg        : Config
  /-- The framebuffer `FB` (R20, R21). -/
  fb         : Memory
  /-- The asset memory (R54); nothing writes it (log 3). -/
  asset      : Memory
  /-- `PSTATE` (R20, R22). -/
  pstate     : Lifecycle
  /-- `CH`, the borrowed channel handle, 0 for none (R20, R23). -/
  ch         : Byte
  /-- `FONT_PTR`, the borrowed font reference, 0 for none (R20, R24). -/
  fontPtr    : Addr
  /-- `BX` (R20, R25). -/
  boundX     : Coord
  /-- `BY` (R20, R25). -/
  boundY     : Coord
  /-- `BW` (R20, R25). -/
  boundW     : Coord
  /-- `BH` (R20, R25). -/
  boundH     : Coord
  /-- `STATUS.LAST` (R20, R26). -/
  last       : ResultCode
  /-- The framer operation that waits for the channel's answer, if one does (R33, R199; log 8). -/
  inProgress : Option Framing
  /-- The model's own: the descriptors the host issues, in order (R30, R36; log 5). -/
  program    : List Descriptor
  /-- The model's own: the index of the next descriptor (R30). -/
  position   : Nat
  /-- The model's own: the channel's answers still to come, in order (R36, R192; log 7). -/
  answers    : List Nat
  /-- The model's own: the channel events so far, oldest first (R14, R58; log 9). -/
  events     : List ChannelEvent
  /-- The model's own: how many platform resets there have been, for the free draw of `FB` (R35, R240; log 15). -/
  resets     : Nat
deriving DecidableEq, Repr

/-- The machine right after power-on reset (R35, R240): the framebuffer is a free draw, no font and no channel are bound,
the registers are 0. The platform has placed no asset, no descriptor and no answer (log 3, 6, 7). -/
def State.reset : State :=
  { cfg := Config.platform
    fb := Memory.ofFn Config.platform.frameBytes (Config.frameDraw 0)
    asset := []
    pstate := .closed
    ch := 0
    fontPtr := 0
    boundX := 0
    boundY := 0
    boundW := 0
    boundH := 0
    last := .ok
    inProgress := none
    program := []
    position := 0
    answers := []
    events := []
    resets := 0 }

end Sys2Proof.Machine
end

