-- ==== Sys2Proof/Machine/Flags.lean ====
section
/-! DEFINITION. The PAC has no condition flags (R31). What it has is the status register: the numbers of its fields
(R22, R26, R221), the word it reads as (R28), and which code an operation that has run records (R198). -/

namespace Sys2Proof.Machine

/-- The 2-bit encoding of `PSTATE` (R20, R22). -/
def Lifecycle.code : Lifecycle → BitVec 2
  | .closed => 0
  | .initializing => 1
  | .ready => 2

/-- The 4-bit encoding of a result code (R26, R221). -/
def ResultCode.code : ResultCode → BitVec 4
  | .ok => 0
  | .channelUnavailable => 1
  | .invalidReference => 2
  | .transferSizeMismatch => 3
  | .illegalOperation => 4
  | .badState => 5

/-- `STATUS.FONT_VALID = (FONT_PTR != 0)` (R28). -/
def State.fontValid (s : State) : Bool := decide (s.fontPtr ≠ 0)

/-- The `STATUS` word: `LAST` in bits 3..0, `PSTATE` in bits 5..4, `FONT_VALID` in bit 6, zeros above (R28). -/
def State.statusWord (s : State) : BitVec 32 :=
  (0 : BitVec 25) ++ BitVec.ofBool s.fontValid ++ s.pstate.code ++ s.last.code

/-- What `done` records: `TransferSizeMismatch` if the mismatch latch is set, else `Ok` (R13, R198). -/
def doneCode (mismatch : Bool) : ResultCode := if mismatch then .transferSizeMismatch else .ok

/-- The codes of an operation that did nothing else (R223). -/
def ResultCode.isNoOp : ResultCode → Bool
  | .ok => false
  | .channelUnavailable => true
  | .invalidReference => true
  | .transferSizeMismatch => false
  | .illegalOperation => true
  | .badState => true

end Sys2Proof.Machine
end

