-- ==== Sys2Proof/Machine/Operands.lean ====
section
/-! DEFINITION. What an operand stands for where it is used: the pixel state of a value (R116), the reduction of an
integer to a coordinate (R11, R139), the signed value of a byte (R12), the halving toward zero (R11), and the bytes, half
words and words of asset memory that an address names (R54 to R56). -/

namespace Sys2Proof.Machine

/-- `on(v)`: a value, colour or flag is on when it is not 0 (R87, R116). -/
def isOn (v : Byte) : Bool := decide (v ≠ 0)

/-- `u16(a)`: an integer reduced modulo 65536 (R11, R139). -/
def u16 (a : Int) : Coord := BitVec.ofInt 16 a

/-- `tdiv2(a)`: division by two rounding toward zero (R11). -/
def tdiv2 (a : Int) : Int := if 0 ≤ a then a / 2 else -(-a / 2)

/-- `sx8(b)`: the signed value of a byte (R12). -/
def sx8 (b : Byte) : Int := if b.toNat < 128 then b.toNat else b.toNat - 256

/-- An address `n` bytes further on; addresses wrap modulo 2^32 (R54). -/
def Addr.offset (a : Addr) (n : Nat) : Addr := a + BitVec.ofNat 32 n

/-- `A8(a)`: one byte of asset memory (R13, R54). -/
def a8 (m : Memory) (a : Addr) : Byte := m.read a.toNat

/-- `A16(a)`: two bytes, little-endian (R55). -/
def a16 (m : Memory) (a : Addr) : BitVec 16 := a8 m (Addr.offset a 1) ++ a8 m a

/-- `A32(a)`: four bytes, little-endian (R55). -/
def a32 (m : Memory) (a : Addr) : BitVec 32 := a16 m (Addr.offset a 2) ++ a16 m a

/-- The `n` bytes from address `a` on, in order (R167, R168, R194). -/
def assetBytes (m : Memory) (a : Addr) (n : Nat) : List Byte := (List.range n).map fun i => a8 m (Addr.offset a i)

/-- Bit `q` of the glyph stream that starts at `base`: bit `7 - (q mod 8)` of byte `q div 8` (R56). -/
def streamBit (m : Memory) (base : Addr) (q : Nat) : Bool :=
  (a8 m (Addr.offset base (q / 8))).getLsbD (7 - q % 8)

/-- Bit `k` of the icon whose first word is at `p`: bit `31 - (k mod 32)` of word `k div 32` (R56, R138). -/
def iconBit (m : Memory) (p : Addr) (k : Nat) : Bool :=
  (a32 m (Addr.offset p (4 * (k / 32)))).getLsbD (31 - k % 32)

end Sys2Proof.Machine
end

