-- ==== Sys2Proof/Machine/Ops.lean ====
section
/-! DEFINITION. The operations shared by the meanings: the updates of State, how an operation ends, the address unit's
procedures (R110, R111, R117), the register-read port (R28), taking a descriptor (R30) and the platform's reset (R240). -/

namespace Sys2Proof.Machine

/-- The outcome of an operation. -/
abbrev Result := Host.Outcome State Fault Refusal

/-! ### Updates of State -/

/-- The framebuffer replaced. -/
def State.withFrame (s : State) (m : Memory) : State := { s with fb := m }
/-- `STATUS.LAST` replaced. -/
def State.withLast (s : State) (c : ResultCode) : State := { s with last := c }
/-- `PSTATE` and `CH` replaced. -/
def State.withSession (s : State) (p : Lifecycle) (h : Byte) : State := { s with pstate := p, ch := h }
/-- `FONT_PTR` replaced. -/
def State.withFont (s : State) (f : Addr) : State := { s with fontPtr := f }
/-- `BX` and `BY` replaced. -/
def State.withOrigin (s : State) (x y : Coord) : State := { s with boundX := x, boundY := y }
/-- `BW` and `BH` replaced. -/
def State.withExtent (s : State) (w h : Coord) : State := { s with boundW := w, boundH := h }
/-- One more channel event. -/
def State.emit (s : State) (e : ChannelEvent) : State := { s with events := s.events ++ [e] }
/-- The channel's answers replaced. -/
def State.withAnswers (s : State) (l : List Nat) : State := { s with answers := l }
/-- The operation in progress replaced. -/
def State.withProgress (s : State) (p : Option Framing) : State := { s with inProgress := p }
/-- The index of the next descriptor replaced. -/
def State.withPosition (s : State) (n : Nat) : State := { s with position := n }

/-! ### How an operation ends -/

/-- `done` without a mismatch: the operation ends normally (R13). -/
def done (s : State) : Result := .next (s.withLast .ok)

/-- `raise <Code>`: the operation ends at once as a no-op; `STATUS.LAST` records the code and nothing else changes. This
is all the exception entry the PAC has: no saved state, no vector, no handler and so no return (R13, R220, R223, R225). -/
def raise (code : ResultCode) (s : State) : Result := .next (s.withLast code)

/-! ### The address unit -/

/-- `clampX(x) = min(x, WIDTH - 1)` (R111). -/
def clampX (c : Config) (x : Coord) : Coord := BitVec.ofNat 16 (min x.toNat (c.width - 1))

/-- `clampY(y) = min(y, HEIGHT - 1)` (R111). -/
def clampY (c : Config) (y : Coord) : Coord := BitVec.ofNat 16 (min y.toNat (c.height - 1))

/-- `byteIndex = (y div 8) * WIDTH + x` of an in-range pixel (R51). -/
def byteIndex (c : Config) (x y : Nat) : Nat := y / 8 * c.width + x

/-- The mask of bit `y mod 8`, bit 0 the least significant (R51, R52). -/
def bitMask (y : Nat) : Byte := 1#8 <<< (y % 8)

/-- The framebuffer byte that `SetPixel(x, y, _)` reads and writes (R110). -/
def pixelByte (c : Config) (x y : Coord) : Nat := byteIndex c (clampX c x).toNat (clampY c y).toNat

/-- `SetPixel(x, y, s)` (R110): clamp, then set or clear one bit of one byte. -/
def setPixel (c : Config) (m : Memory) (x y : Coord) (on : Bool) : Memory :=
  let idx := pixelByte c x y
  let mask := bitMask (clampY c y).toNat
  m.write idx (if on then m.read idx ||| mask else m.read idx &&& ~~~mask)

/-- The state of the pixel `(x, y)`: bit `y mod 8` of byte `(y div 8) * WIDTH + x` (R51, R52). -/
def pixel (c : Config) (m : Memory) (x y : Nat) : Bool := (m.read (byteIndex c x y)).getLsbD (y % 8)

/-- `FillAll(s)`: every byte of the framebuffer 0xFF or 0x00 (R117). -/
def fillAll (c : Config) (on : Bool) : Memory := Memory.ofFn c.frameBytes fun _ => if on then 0xFF else 0x00

/-- One call of `SetPixel`. -/
structure Plot where
  /-- The point, before it is clamped. -/
  at_ : Point
  /-- The pixel state written. -/
  on : Bool
deriving DecidableEq, Repr

/-- The calls of `SetPixel` in order (R14, R59). -/
def plotAll (c : Config) (m : Memory) (ps : List Plot) : Memory :=
  ps.foldl (fun m p => setPixel c m p.at_.1 p.at_.2 p.on) m

/-- Points that are all plotted with one pixel state. -/
def plots (on : Bool) (ps : List Point) : List Plot := ps.map fun p => ⟨p, on⟩

/-- A drawing operation: its calls of `SetPixel`, then `done`. -/
def draw (ps : List Plot) (s : State) : Result := done (s.withFrame (plotAll s.cfg s.fb ps))

/-! ### The register-read port -/

/-- The 32-bit value of a register, zero-extended; numbers 9 to 15 are reserved and read as 0 (R28, R91). -/
def State.register (s : State) (n : BitVec 4) : BitVec 32 :=
  match n.toNat with
  | 0 => BitVec.ofNat 32 s.cfg.width
  | 1 => BitVec.ofNat 32 s.cfg.height
  | 2 => s.statusWord
  | 3 => s.fontPtr
  | 4 => s.boundX.setWidth 32
  | 5 => s.boundY.setWidth 32
  | 6 => s.boundW.setWidth 32
  | 7 => s.boundH.setWidth 32
  | 8 => s.ch.setWidth 32
  | _ => 0

/-- A read at the register-read port: answered only while no operation is in progress, without side effect (R28, R199;
log 16). -/
def readRegister (s : State) (n : BitVec 4) : Option (BitVec 32) :=
  if s.inProgress.isSome then none else some (s.register n)

/-! ### Taking descriptors -/

/-- The descriptor the host issues next, if there is one (R30). -/
def State.fetch (s : State) : Option Descriptor := s.program[s.position]?

/-- The position advances by one when an operation has ended, whatever its result code (R30; log 11). -/
def State.retire (s : State) : State := if s.inProgress.isNone then s.withPosition (s.position + 1) else s

/-- What follows an operation's own outcome: a next state retires the descriptor. -/
def retireResult : Result → Result
  | .next s => .next s.retire
  | .fault f => .fault f
  | .refused r => .refused r

/-- The list with `w` at index `n`, every other entry unchanged; a list too short is filled up with all-zero
descriptors (which are illegal and do nothing, R85). -/
def placeAt : List Descriptor → Nat → Descriptor → List Descriptor
  | [], 0, w => [w]
  | _ :: rest, 0, w => w :: rest
  | [], n + 1, w => 0 :: placeAt [] n w
  | d :: rest, n + 1, w => d :: placeAt rest n w

/-! ### The platform's reset -/

/-- A reset applied later by the platform (R240): the registers as after power-on (R35), the framebuffer a fresh draw,
an operation in progress abandoned. Parameters, assets and the environment's inputs and outputs are not the PAC's to
reset (log 15). A frame under transmission may be cut short, which the device sees as a partial transfer (R240, U19):
DESIGN CHOICE, unsafe, log 18: the event of its `ChWrite` stays whole, and how much of it the device saw is not in State. -/
def platformReset (s : State) : State :=
  { s with
    fb := Memory.ofFn s.cfg.frameBytes (Config.frameDraw (s.resets + 1))
    pstate := .closed
    ch := 0
    fontPtr := 0
    boundX := 0
    boundY := 0
    boundW := 0
    boundH := 0
    last := .ok
    inProgress := none
    position := if s.inProgress.isSome then s.position + 1 else s.position
    resets := s.resets + 1 }

end Sys2Proof.Machine
end

