-- ==== Sys2Proof/Machine/Address.lean ====
section
/-! DEFINITION. The address unit's operations SETPX, FILL, CLEAR (40_pixelbuffer.md). -/

namespace Sys2Proof.Machine

/-- SETPX (R112): `SetPixel(W.A, W.B, on(W.V)); done`. -/
def execSetpx (x y : Coord) (value : Byte) (s : State) : Host.Outcome State Fault Refusal :=
  draw [⟨(x, y), isOn value⟩] s

/-- FILL (R113): `FillAll(on(W.V)); done`. -/
def execFill (value : Byte) (s : State) : Host.Outcome State Fault Refusal :=
  done (s.withFrame (fillAll s.cfg (isOn value)))

/-- CLEAR (R114): `FillAll(0); done`. -/
def execClear (s : State) : Host.Outcome State Fault Refusal :=
  done (s.withFrame (fillAll s.cfg false))

end Sys2Proof.Machine
end

