-- ==== Sys2Proof/Machine/Framer.lean ====
section
/-! DEFINITION. The framer unit's operations OPEN, SYNC, CLOSE, RESET (43_device_framer.md). A framer operation runs as far
as the channel's answers carry it; where the channel has not answered, the operation is left in progress and goes on
when the answer is there (R192, R199; log 8). -/

namespace Sys2Proof.Machine

/-- The bytes of a frame: the selector, then the payload in order (R58, R191, R193, R194). -/
def frameBytesOf (s : State) : FrameKind → List Byte
  | .init payload length => s.cfg.selCmd :: assetBytes s.asset payload length.toNat
  | .cursor => s.cfg.selCmd :: s.cfg.cursorReset
  | .buffer => s.cfg.selData :: (List.range s.cfg.frameBytes).map s.fb.read

/-- `Flush()`: the cursor reset, immediately followed by the whole buffer (R193). -/
def flushActions : List FramerAction := [.send .cursor, .send .buffer]

/-- The actions in order, from a state whose `mismatch` latch is given (R192, R194 to R196, R198). A frame that the channel
has not answered leaves the rest in progress; after the last action comes `done`. -/
def runFramer : List FramerAction → Bool → State → State
  | [], mismatch, s => s.withLast (doneCode mismatch)
  | .blank :: rest, mismatch, s => runFramer rest mismatch (s.withFrame (fillAll s.cfg false))
  | .ready :: rest, mismatch, s => runFramer rest mismatch (s.withSession .ready s.ch)
  | .release :: rest, mismatch, s => runFramer rest mismatch ((s.emit (.release s.ch)).withSession .closed 0)
  | .send frame :: rest, mismatch, s =>
    let bytes := frameBytesOf s frame
    let sent := s.emit (.write s.ch bytes)
    match s.answers with
    | [] => sent.withProgress (some ⟨bytes.length, rest, mismatch⟩)
    | n :: more => runFramer rest (mismatch || n != bytes.length) ((sent.withAnswers more).emit (.answer n))

/-- The operation in progress takes the channel's answer and goes on; without an answer nothing happens, for as long as
the channel does not answer (R192, R199). -/
def resumeFramer (w : Framing) (s : State) : State :=
  match s.answers with
  | [] => s
  | n :: more =>
    runFramer w.remaining (w.mismatch || n != w.awaited)
      (((s.withProgress none).withAnswers more).emit (.answer n))

/-- OPEN (R194): the channel operand is tested first, then the lifecycle state (R222). -/
def execOpen (channel : Byte) (initLength : Coord) (initPayload : Addr) (s : State) :
    Host.Outcome State Fault Refusal :=
  if channel = 0 then raise .channelUnavailable s
  else
    match s.pstate with
    | .closed =>
      .next (runFramer ([.send (.init initPayload initLength), .blank] ++ flushActions ++ [.ready]) false
        (s.withSession .initializing channel))
    | .initializing => raise .badState s
    | .ready => raise .badState s

/-- SYNC (R195). -/
def execSync (s : State) : Host.Outcome State Fault Refusal :=
  match s.pstate with
  | .ready => .next (runFramer flushActions false s)
  | .closed => raise .channelUnavailable s
  | .initializing => raise .channelUnavailable s

/-- CLOSE (R196). -/
def execClose (cleanFlag : Byte) (s : State) : Host.Outcome State Fault Refusal :=
  match s.pstate with
  | .ready => .next (runFramer ((if cleanFlag = 0 then [] else .blank :: flushActions) ++ [.release]) false s)
  | .closed => raise .channelUnavailable s
  | .initializing => raise .channelUnavailable s

/-- RESET (R197): reserved; the PAC executes it as an illegal operation, which changes nothing but `STATUS.LAST` (R86,
R221). Its flag has no meaning. Rules R86 and R197 ask that nothing be claimed of a program that contains it:
`claimable` in Safety.lean keeps to that (log 10). -/
def execReset (_flag : Byte) (s : State) : Host.Outcome State Fault Refusal :=
  raise .illegalOperation s

end Sys2Proof.Machine
end

