-- ==== Sys2Proof/Machine/Glyph.lean ====
section
/-! DEFINITION. The glyph unit's operations SETFONT, GLYPH, WSTR, STRB, JUST (42_glyph_text.md). -/

namespace Sys2Proof.Machine

/-! ### Fonts in asset memory -/

/-- A font descriptor (R160). -/
structure Font where
  /-- The first character of the glyph table. -/
  firstChar  : Byte
  /-- The last character of the glyph table. -/
  lastChar   : Byte
  /-- The height that STRB reports. -/
  maxHeight  : Byte
  /-- The asset address of the glyph table. -/
  glyphBase  : Addr
  /-- The asset address of the bitmap stream. -/
  bitmapBase : Addr
deriving DecidableEq, Repr

/-- The font descriptor at asset address `f` (R160). -/
def loadFont (m : Memory) (f : Addr) : Font :=
  { firstChar := a8 m f
    lastChar := a8 m (Addr.offset f 1)
    maxHeight := a8 m (Addr.offset f 2)
    glyphBase := a32 m (Addr.offset f 4)
    bitmapBase := a32 m (Addr.offset f 8) }

/-- A glyph record (R161). -/
structure GlyphRecord where
  /-- Width in pixels. -/
  width        : Nat
  /-- Height in pixels. -/
  height       : Nat
  /-- How far the pen moves. -/
  xAdvance     : Nat
  /-- Signed horizontal offset of the top-left cell. -/
  xOffset      : Int
  /-- Signed vertical offset of the top-left cell. -/
  yOffset      : Int
  /-- Where the glyph's bits begin, in units of `GLYPH_OFFSET_UNIT` stream bits. -/
  bitmapOffset : Nat
deriving DecidableEq, Repr

/-- The glyph record at asset address `g` (R161, R164). -/
def loadGlyph (m : Memory) (g : Addr) : GlyphRecord :=
  { width := (a8 m g).toNat
    height := (a8 m (Addr.offset g 1)).toNat
    xAdvance := (a8 m (Addr.offset g 2)).toNat
    xOffset := sx8 (a8 m (Addr.offset g 3))
    yOffset := sx8 (a8 m (Addr.offset g 4))
    bitmapOffset := (a16 m (Addr.offset g 6)).toNat }

/-- `Lookup(c)` (R164): none for a character outside `[firstChar, lastChar]`. -/
def lookup (m : Memory) (f : Font) (c : Byte) : Option GlyphRecord :=
  if c.toNat < f.firstChar.toNat ∨ c.toNat > f.lastChar.toNat then none
  else some (loadGlyph m (Addr.offset f.glyphBase (8 * (c.toNat - f.firstChar.toNat))))

/-! ### The glyph bitstream decoder -/

/-- The points of `DrawGlyph(g, xPos, yPos, _)` in raster order (R165): one for each set bit; 0 bits are skipped. -/
def glyphPoints (c : Config) (m : Memory) (bitmapBase : Addr) (g : GlyphRecord) (xPos yPos : Coord) : List Point :=
  if g.width = 0 ∨ g.height = 0 then []
  else
    (List.range g.height).flatMap fun row =>
      (List.range g.width).filterMap fun col =>
        if streamBit m bitmapBase (g.bitmapOffset * c.offsetUnit.bits + row * g.width + col) then
          some (u16 (xPos.toNat + g.xOffset + col), u16 (yPos.toNat + g.yOffset + row))
        else none

/-- The points of a character, none for a character the font does not have (R164, R166). -/
def charPoints (c : Config) (m : Memory) (f : Font) (char : Byte) (xPos yPos : Coord) : List Point :=
  match lookup m f char with
  | none => []
  | some g => glyphPoints c m f.bitmapBase g xPos yPos

/-- The pen after a character: moved by `xAdvance`, wrapping modulo 65536, for a character of the font, and left where it
is for any other (R167, conflict C11). -/
def penAfter (m : Memory) (f : Font) (char : Byte) (pen : Coord) : Coord :=
  match lookup m f char with
  | none => pen
  | some g => u16 (pen.toNat + g.xAdvance)

/-- The points of a string whose pen stands at `pen` (R167). -/
def stringPoints (c : Config) (m : Memory) (f : Font) (yPos : Coord) : List Byte → Coord → List Point
  | [], _ => []
  | char :: rest, pen => charPoints c m f char pen yPos ++ stringPoints c m f yPos rest (penAfter m f char pen)

/-- What a character adds to a string's width: nothing for the carriage return `0x0D` (G3) and for a character the font
does not have (R168). -/
def measuredAdvance (m : Memory) (f : Font) (char : Byte) : Nat :=
  if char = 0x0D then 0
  else
    match lookup m f char with
    | none => 0
    | some g => g.xAdvance

/-- The accumulated width of a string, before it is clamped to `WIDTH` (R168). -/
def measuredWidth (m : Memory) (f : Font) (text : List Byte) : Nat :=
  text.foldl (fun w char => w + measuredAdvance m f char) 0

/-- An operation that needs a font: `InvalidReference` while none is bound, before anything else (R162). -/
def withBoundFont (s : State) (k : Font → Result) : Result :=
  if s.fontPtr = 0 then raise .invalidReference s else k (loadFont s.asset s.fontPtr)

/-! ### Operations -/

/-- SETFONT (R163): the reference is stored and nothing is read. -/
def execSetfont (font : Addr) (s : State) : Host.Outcome State Fault Refusal :=
  done (s.withFont font)

/-- GLYPH (R166). -/
def execGlyph (xPos yPos : Coord) (char colour : Byte) (s : State) : Host.Outcome State Fault Refusal :=
  withBoundFont s fun f => draw (plots (isOn colour) (charPoints s.cfg s.asset f char xPos yPos)) s

/-- WSTR (R167). -/
def execWstr (xPos yPos : Coord) (colour : Byte) (length : Coord) (text : Addr) (s : State) :
    Host.Outcome State Fault Refusal :=
  withBoundFont s fun f =>
    draw (plots (isOn colour) (stringPoints s.cfg s.asset f yPos (assetBytes s.asset text length.toNat) xPos)) s

/-- STRB (R168). -/
def execStrb (length : Coord) (text : Addr) (s : State) : Host.Outcome State Fault Refusal :=
  withBoundFont s fun f =>
    let w := measuredWidth s.asset f (assetBytes s.asset text length.toNat)
    done (s.withExtent (BitVec.ofNat 16 (min w s.cfg.width)) (f.maxHeight.setWidth 16))

/-- JUST (R169): 0 Left, 1 Center, 2 Right; the horizontal offset goes to `BY` and the vertical one to `BX`, as the
source asks (U5). -/
def execJust (containerWidth containerHeight : Coord) (mode : Byte) (s : State) : Host.Outcome State Fault Refusal :=
  let cw : Int := containerWidth.toNat
  let chh : Int := containerHeight.toNat
  let tw : Int := s.boundW.toNat
  let th : Int := s.boundH.toNat
  match mode.toNat with
  | 0 => done (s.withOrigin 0 0)
  | 1 => done (s.withOrigin (u16 (tdiv2 (chh + th))) (u16 (tdiv2 (cw - tw))))
  | 2 => done (s.withOrigin (u16 (chh - th)) (u16 (cw - tw)))
  | _ => raise .illegalOperation s

end Sys2Proof.Machine
end

