-- ==== Sys2Proof/Machine/Raster.lean ====
section
/-! DEFINITION. The raster unit's operations LINE, RECT, RECTF, CIRC, CIRCF, ICON (41_primitives.md). Every loop runs on a
count that its rule bounds it by (R140); that the bound never cuts a loop short is DEDUCED (log 17). -/

namespace Sys2Proof.Machine

/-! ### Lines -/

/-- `Sanitize(x, y) = (clampX(x), clampY(y))` (R130). -/
def sanitize (c : Config) (p : Point) : Point := (clampX c p.1, clampY c p.2)

/-- The loop of `DrawLine` (R131), at most `fuel` iterations: the points plotted on the way from `(x, y)` to `(x1, y1)`.
Both tests use the snapshot `e2` of the error. -/
def lineLoop (x1 y1 dx dy sx sy : Int) : Nat → Int → Int → Int → List Point
  | 0, _, _, _ => []
  | fuel + 1, x, y, err =>
    (u16 x, u16 y) ::
      if x = x1 ∧ y = y1 then []
      else
        let e2 := err
        let err := if e2 > -dx then err - dy else err
        let x := if e2 > -dx then x + sx else x
        let err := if e2 < dy then err + dx else err
        let y := if e2 < dy then y + sy else y
        lineLoop x1 y1 dx dy sx sy fuel x y err

/-- The points of `DrawLine(x0, y0, x1, y1, _)` in the order they are plotted (R131); details of the recurrence are
from general knowledge (G1, log 13). -/
def linePoints (c : Config) (p q : Point) : List Point :=
  let p := sanitize c p
  let q := sanitize c q
  let x0 : Int := p.1.toNat
  let y0 : Int := p.2.toNat
  let x1 : Int := q.1.toNat
  let y1 : Int := q.2.toNat
  let dx := (x1 - x0).natAbs
  let dy := (y1 - y0).natAbs
  let sx : Int := if x0 < x1 then 1 else -1
  let sy : Int := if y0 < y1 then 1 else -1
  let err : Int := if dx > dy then (dx / 2 : Nat) else -((dy / 2 : Nat) : Int)
  lineLoop x1 y1 dx dy sx sy (max dx dy + 1) x0 y0 err

/-- LINE (R132). -/
def execLine (x0 y0 x1 y1 : Coord) (colour : Byte) (s : State) : Host.Outcome State Fault Refusal :=
  draw (plots (isOn colour) (linePoints s.cfg (x0, y0) (x1, y1))) s

/-! ### Rectangles -/

/-- The points of RECT: the four edges of the sanitised corners, in the order of R133. -/
def rectPoints (c : Config) (p q : Point) : List Point :=
  let a := sanitize c p
  let b := sanitize c q
  linePoints c (a.1, a.2) (b.1, a.2) ++ linePoints c (b.1, a.2) (b.1, b.2) ++
    linePoints c (b.1, b.2) (a.1, b.2) ++ linePoints c (a.1, b.2) (a.1, a.2)

/-- RECT (R133). -/
def execRect (xStart yStart xEnd yEnd : Coord) (colour : Byte) (s : State) : Host.Outcome State Fault Refusal :=
  draw (plots (isOn colour) (rectPoints s.cfg (xStart, yStart) (xEnd, yEnd))) s

/-- The coordinates `lo .. hi` in rising order. -/
def coordRange (lo hi : Nat) : List Coord := (List.range' lo (hi + 1 - lo)).map (BitVec.ofNat 16)

/-- The points of RECTF: the inclusive bounding box of the sanitised corners, swept along its shorter axis, columns on a
tie (R134, conflict C3). -/
def rectfPoints (c : Config) (p q : Point) : List Point :=
  let a := sanitize c p
  let b := sanitize c q
  let xl := min a.1.toNat b.1.toNat
  let xh := max a.1.toNat b.1.toNat
  let yl := min a.2.toNat b.2.toNat
  let yh := max a.2.toNat b.2.toNat
  if xh - xl ≤ yh - yl then
    (coordRange xl xh).flatMap fun x => linePoints c (x, BitVec.ofNat 16 yl) (x, BitVec.ofNat 16 yh)
  else
    (coordRange yl yh).flatMap fun y => linePoints c (BitVec.ofNat 16 xl, y) (BitVec.ofNat 16 xh, y)

/-- RECTF (R134). -/
def execRectf (xStart yStart xEnd yEnd : Coord) (colour : Byte) (s : State) : Host.Outcome State Fault Refusal :=
  draw (plots (isOn colour) (rectfPoints s.cfg (xStart, yStart) (xEnd, yEnd))) s

/-! ### Circles -/

/-- The loop of the circle stepper (R135), at most `fuel` emissions. The second test reads the error the first branch
may just have changed. -/
def circleLoop (r : Int) : Nat → Int → Int → Int → Int → Int → List (Int × Int)
  | 0, _, _, _, _, _ => []
  | fuel + 1, x, y, dx, dy, err =>
    if x ≥ y then
      (x, y) ::
        (let up := err ≤ 0
         let y := if up then y + 1 else y
         let err := if up then err + dy else err
         let dy := if up then dy + 2 else dy
         let inward := err > 0
         let x := if inward then x - 1 else x
         let dx := if inward then dx + 2 else dx
         let err := if inward then err + dx - 2 * r else err
         circleLoop r fuel x y dx dy err)
    else []

/-- The pairs the circle stepper emits for radius `r`, in order (R135); details of the recurrence are from general
knowledge (G2, log 13). -/
def circleSteps (r : Nat) : List (Int × Int) := circleLoop r r (r - 1) 0 1 1 (1 - 2 * r)

/-- The eight points of one step of CIRC, in the order of R136. -/
def circlePoints (x0 y0 : Int) (p : Int × Int) : List Point :=
  [(u16 (x0 + p.1), u16 (y0 + p.2)), (u16 (x0 + p.2), u16 (y0 + p.1)), (u16 (x0 - p.2), u16 (y0 + p.1)),
    (u16 (x0 - p.1), u16 (y0 + p.2)), (u16 (x0 - p.1), u16 (y0 - p.2)), (u16 (x0 - p.2), u16 (y0 - p.1)),
    (u16 (x0 + p.2), u16 (y0 - p.1)), (u16 (x0 + p.1), u16 (y0 - p.2))]

/-- The points of CIRC; the centre is not clamped (R130, R136). -/
def circPoints (x0 y0 radius : Coord) : List Point :=
  (circleSteps radius.toNat).flatMap (circlePoints x0.toNat y0.toNat)

/-- CIRC (R136). -/
def execCirc (x0 y0 radius : Coord) (colour : Byte) (s : State) : Host.Outcome State Fault Refusal :=
  draw (plots (isOn colour) (circPoints x0 y0 radius)) s

/-- The four spans of one step of CIRCF, in the order of R137. -/
def discSpans (c : Config) (x0 y0 : Int) (p : Int × Int) : List Point :=
  linePoints c (u16 (x0 - p.1), u16 (y0 + p.2)) (u16 (x0 + p.1), u16 (y0 + p.2)) ++
    linePoints c (u16 (x0 - p.2), u16 (y0 + p.1)) (u16 (x0 + p.2), u16 (y0 + p.1)) ++
    linePoints c (u16 (x0 - p.1), u16 (y0 - p.2)) (u16 (x0 + p.1), u16 (y0 - p.2)) ++
    linePoints c (u16 (x0 - p.2), u16 (y0 - p.1)) (u16 (x0 + p.2), u16 (y0 - p.1))

/-- The points of CIRCF (R137). -/
def circfPoints (c : Config) (x0 y0 radius : Coord) : List Point :=
  (circleSteps radius.toNat).flatMap (discSpans c x0.toNat y0.toNat)

/-- CIRCF (R137). -/
def execCircf (x0 y0 radius : Coord) (colour : Byte) (s : State) : Host.Outcome State Fault Refusal :=
  draw (plots (isOn colour) (circfPoints s.cfg x0 y0 radius)) s

/-! ### Icons -/

/-- One cell of ICON: column `col`, row `row`. The bit counter runs on across columns, so it is `col * height + row`
(R138; log 17). A 0 bit clears its cell; the origin is not clamped (R130). -/
def iconCell (m : Memory) (x y height : Coord) (on : Bool) (words : Addr) (col row : Nat) : Plot :=
  ⟨(u16 (x.toNat + col), u16 (y.toNat + row)), iconBit m words (col * height.toNat + row) && on⟩

/-- The cells of ICON, column by column (R138). -/
def iconPlots (m : Memory) (x y width height : Coord) (on : Bool) (words : Addr) : List Plot :=
  (List.range width.toNat).flatMap fun col =>
    (List.range height.toNat).map fun row => iconCell m x y height on words col row

/-- ICON (R138). -/
def execIcon (x y width height : Coord) (colour : Byte) (words : Addr) (s : State) : Host.Outcome State Fault Refusal :=
  draw (iconPlots s.asset x y width height (isOn colour) words) s

end Sys2Proof.Machine
end

