-- ==== Sys2Proof/Machine/Dispatch.lean ====
section
/-! DEFINITION. The meaning of every operation, one arm per row of spec/opcode_table.json. -/

namespace Sys2Proof.Machine

def exec (i : Instr) (s : State) : Host.Outcome State Fault Refusal :=
  match i with
  | .setpx x y value => Sys2Proof.Machine.execSetpx x y value s
  | .fill value => Sys2Proof.Machine.execFill value s
  | .clear => Sys2Proof.Machine.execClear s
  | .line x0 y0 x1 y1 colour => Sys2Proof.Machine.execLine x0 y0 x1 y1 colour s
  | .rect xStart yStart xEnd yEnd colour => Sys2Proof.Machine.execRect xStart yStart xEnd yEnd colour s
  | .rectf xStart yStart xEnd yEnd colour => Sys2Proof.Machine.execRectf xStart yStart xEnd yEnd colour s
  | .circ x0 y0 radius colour => Sys2Proof.Machine.execCirc x0 y0 radius colour s
  | .circf x0 y0 radius colour => Sys2Proof.Machine.execCircf x0 y0 radius colour s
  | .icon x y width height colour words => Sys2Proof.Machine.execIcon x y width height colour words s
  | .setfont font => Sys2Proof.Machine.execSetfont font s
  | .glyph xPos yPos char colour => Sys2Proof.Machine.execGlyph xPos yPos char colour s
  | .wstr xPos yPos colour length text => Sys2Proof.Machine.execWstr xPos yPos colour length text s
  | .strb length text => Sys2Proof.Machine.execStrb length text s
  | .just containerWidth containerHeight mode => Sys2Proof.Machine.execJust containerWidth containerHeight mode s
  | .openDisplay channel initLength initPayload => Sys2Proof.Machine.execOpen channel initLength initPayload s
  | .sync => Sys2Proof.Machine.execSync s
  | .close cleanFlag => Sys2Proof.Machine.execClose cleanFlag s
  | .reset flag => Sys2Proof.Machine.execReset flag s

end Sys2Proof.Machine
end

