-- ==== Sys2Proof/Machine/Step.lean ====
section
/-! DEFINITION. One step of the PAC: it goes on with the operation in progress, or takes the host's next descriptor and
executes it, or waits (R7, R8, R30, R81). -/

namespace Sys2Proof.Machine

/-- A descriptor executed: the operation it decodes to, or a no-op with `IllegalOperation` (R85). -/
def execDescriptor (w : Descriptor) (s : State) : Host.Outcome State Fault Refusal :=
  match decode w with
  | .ok i => exec i s
  | .error _ => raise .illegalOperation s

/-- One step. While an operation is in progress no descriptor is taken (R81, R199). With no descriptor left the PAC waits
and keeps all its state (R229, R240; log 5). -/
def step (s : State) : Host.Outcome State Fault Refusal :=
  match s.inProgress with
  | some w => .next (resumeFramer w s).retire
  | none =>
    match s.fetch with
    | some w => retireResult (execDescriptor w s)
    | none => .next s

/-- The state whose next step takes the descriptor with low bits `w`: it stands at the host's current position of the
list of descriptors, and no operation is in progress (the command port is ready, R81). Nothing else changes (log 6). -/
def State.withFetchWord (s : State) (nbits w : Nat) : State :=
  { s with program := placeAt s.program s.position (tableDescriptor nbits w), inProgress := none }

end Sys2Proof.Machine
end

