-- ==== Sys2Proof/Safety.lean ====
section
/-! DEFINITION. What holds of every state the PAC reaches, and which programs the spec lets one claim something about. -/

namespace Sys2Proof.Machine

/-- The framebuffer and the asset memory are in canonical form and list nothing outside their spaces: no out-of-bounds
framebuffer access has happened (R21, R54, R64). -/
abbrev MemoryInv (s : State) : Prop :=
  s.fb.wf ∧ s.fb.within s.cfg.frameBytes ∧ s.asset.wf ∧ s.asset.within (2 ^ 32)

/-- What a framer operation in progress may have left to do: the tails of OPEN's, SYNC's and CLOSE's actions after each
of their frames, with the lifecycle state they run in (R22, R190, R194 to R196). -/
abbrev FramingInv (p : Lifecycle) (remaining : List FramerAction) : Prop :=
  (p = .initializing ∧ (remaining = [.blank, .send .cursor, .send .buffer, .ready] ∨
    remaining = [.send .buffer, .ready] ∨ remaining = [.ready])) ∨
  (p = .ready ∧ (remaining = [.send .buffer] ∨ remaining = [] ∨
    remaining = [.send .buffer, .release] ∨ remaining = [.release]))

/-- The session: `CH != 0` exactly when `PSTATE != Closed` (R23); `Initializing` is held only inside an OPEN (R22). -/
abbrev SessionInv (s : State) : Prop :=
  (s.ch ≠ 0 ↔ s.pstate ≠ .closed) ∧
  (s.inProgress = none → s.pstate ≠ .initializing) ∧
  (∀ w, s.inProgress = some w → FramingInv s.pstate w.remaining)

/-- `BW` never exceeds `WIDTH` (R168) and `BH` is a byte's value (R160, R168). -/
abbrev BoundsInv (s : State) : Prop := s.boundW.toNat ≤ s.cfg.width ∧ s.boundH.toNat ≤ 255

/-- The position never passes the end of the host's list, and an operation in progress is one of that list (R30). -/
abbrev PositionInv (s : State) : Prop :=
  s.position ≤ s.program.length ∧ (s.inProgress ≠ none → s.position < s.program.length)

/-- The invariant of the PAC. -/
abbrev Inv (s : State) : Prop := MemoryInv s ∧ SessionInv s ∧ BoundsInv s ∧ PositionInv s

/-- Whether a descriptor is one the spec lets a program be claimed about: not RESET, which a model must refuse (R86), that is,
claim nothing about the executions that contain it (R197, U3; log 10). The statements about executions ask for it. -/
def claimable (w : Descriptor) : Bool := decide (fieldOp w ≠ 0x33)

/-- A program of claimable descriptors only: one without RESET (R86, R197). -/
abbrev ClaimableProgram (s : State) : Prop := s.program.all claimable = true

end Sys2Proof.Machine
end

