-- ==== Sys2Proof/WellFormed.lean ====
section
/-! DEFINITION. Which operations are legal as such. The types of the operands already keep every operand inside its
field (R80); what is left are the operand values and the encoding that the spec calls illegal or reserved. -/

namespace Sys2Proof

/-- An operation that can end with a code other than `IllegalOperation`: every operation but JUST with a mode above 2
(R87, R169) and the reserved RESET (R86, R197). Ill-formed operations decode and execute all the same, as the spec says
(log 14). -/
def Instr.wellFormed : Instr → Bool
  | .setpx _ _ _ => true
  | .fill _ => true
  | .clear => true
  | .line _ _ _ _ _ => true
  | .rect _ _ _ _ _ => true
  | .rectf _ _ _ _ _ => true
  | .circ _ _ _ _ => true
  | .circf _ _ _ _ => true
  | .icon _ _ _ _ _ _ => true
  | .setfont _ => true
  | .glyph _ _ _ _ => true
  | .wstr _ _ _ _ _ => true
  | .strb _ _ => true
  | .just _ _ mode => decide (mode.toNat ≤ 2)
  | .openDisplay _ _ _ => true
  | .sync => true
  | .close _ => true
  | .reset _ => false

end Sys2Proof
end

