-- ==== Sys2Proof/Certificates/Slice0/Obligations.lean ====
section
/-! DEFINITION. The statements for the provers, from the numbered rules of spec/. First the few notions they are said in,
each written from the rule it cites and independently of how the model computes it. -/

namespace Sys2Proof.Machine

/-- Where an integer coordinate lands on an axis of `size` pixels: reduced modulo 65536, then clamped to the last valid
index (R11, R111, R139). -/
def landsAt (size : Nat) (a : Int) : Nat := min (a % 65536).toNat (size - 1)

/-- `t` is `s` after a drawing operation that gives the pixels of `painted` the state `on`: every other pixel, every byte
outside the framebuffer and every other piece of state is unchanged, and the operation ended with `Ok`. -/
def Drawn (s t : State) (on : Bool) (painted : Nat → Nat → Prop) : Prop :=
  t = { s with fb := t.fb, last := .ok } ∧
  (∀ px py, px < s.cfg.width → py < s.cfg.height →
    (painted px py → pixel s.cfg t.fb px py = on) ∧
    (¬ painted px py → pixel s.cfg t.fb px py = pixel s.cfg s.fb px py)) ∧
  ∀ a, s.cfg.frameBytes ≤ a → t.fb.read a = s.fb.read a

/-- The pixels of a line in closed form: step `k` moves `k` pixels along the longer axis and
`ceil((k * minor - major div 2) / major)` pixels along the shorter one, the `x` axis being the longer one when
`dx > dy` (what the recurrence of R131 comes to). -/
def lineClosedForm (c : Config) (p q : Point) : List (Int × Int) :=
  let x0 := min p.1.toNat (c.width - 1)
  let y0 := min p.2.toNat (c.height - 1)
  let x1 := min q.1.toNat (c.width - 1)
  let y1 := min q.2.toNat (c.height - 1)
  let dx := max x0 x1 - min x0 x1
  let dy := max y0 y1 - min y0 y1
  let sx : Int := if x0 < x1 then 1 else -1
  let sy : Int := if y0 < y1 then 1 else -1
  (List.range (max dx dy + 1)).map fun (k : Nat) =>
    if dx > dy then ((x0 : Int) + sx * k, (y0 : Int) + sy * ((k * dy + (dx - 1 - dx / 2)) / dx : Nat))
    else ((x0 : Int) + sx * ((k * dx + (dy - 1 - dy / 2)) / dy : Nat), (y0 : Int) + sy * k)

/-- The calls of SetPixel of a drawing operation, as its meaning makes them; none for the other operations. -/
def callsOf (s : State) : Instr → List Plot
  | .setpx x y v => [⟨(x, y), isOn v⟩]
  | .line x0 y0 x1 y1 v => plots (isOn v) (linePoints s.cfg (x0, y0) (x1, y1))
  | .rect x0 y0 x1 y1 v => plots (isOn v) (rectPoints s.cfg (x0, y0) (x1, y1))
  | .rectf x0 y0 x1 y1 v => plots (isOn v) (rectfPoints s.cfg (x0, y0) (x1, y1))
  | .circ x0 y0 r v => plots (isOn v) (circPoints x0 y0 r)
  | .circf x0 y0 r v => plots (isOn v) (circfPoints s.cfg x0 y0 r)
  | .icon x y w h v p => iconPlots s.asset x y w h (isOn v) p
  | .glyph x y ch v =>
    if s.fontPtr = 0 then [] else plots (isOn v) (charPoints s.cfg s.asset (loadFont s.asset s.fontPtr) ch x y)
  | .wstr x y v l p =>
    if s.fontPtr = 0 then []
    else plots (isOn v) (stringPoints s.cfg s.asset (loadFont s.asset s.fontPtr) y (assetBytes s.asset p l.toNat) x)
  | .fill _ => []
  | .clear => []
  | .setfont _ => []
  | .strb _ _ => []
  | .just _ _ _ => []
  | .openDisplay _ _ _ => []
  | .sync => []
  | .close _ => []
  | .reset _ => []

/-- The operations whose only effect on the framebuffer is through SetPixel. -/
def drawsByPixel : Instr → Bool
  | .setpx _ _ _ => true
  | .line _ _ _ _ _ => true
  | .rect _ _ _ _ _ => true
  | .rectf _ _ _ _ _ => true
  | .circ _ _ _ _ => true
  | .circf _ _ _ _ => true
  | .icon _ _ _ _ _ _ => true
  | .glyph _ _ _ _ => true
  | .wstr _ _ _ _ _ => true
  | .fill _ => false
  | .clear => false
  | .setfont _ => false
  | .strb _ _ => false
  | .just _ _ _ => false
  | .openDisplay _ _ _ => false
  | .sync => false
  | .close _ => false
  | .reset _ => false

/-- The operations of the framer unit that use the channel (R3): OPEN, SYNC, CLOSE. -/
def usesChannel : Instr → Bool
  | .openDisplay _ _ _ => true
  | .sync => true
  | .close _ => true
  | .setpx _ _ _ => false
  | .fill _ => false
  | .clear => false
  | .line _ _ _ _ _ => false
  | .rect _ _ _ _ _ => false
  | .rectf _ _ _ _ _ => false
  | .circ _ _ _ _ => false
  | .circf _ _ _ _ => false
  | .icon _ _ _ _ _ _ => false
  | .setfont _ => false
  | .glyph _ _ _ _ => false
  | .wstr _ _ _ _ _ => false
  | .strb _ _ => false
  | .just _ _ _ => false
  | .reset _ => false

/-- Whether an action sends a frame, so that the channel answers it (R192). -/
def sendsFrame : FramerAction → Bool
  | .send _ => true
  | .blank => false
  | .ready => false
  | .release => false

/-- The cursor-reset Command frame (R193). -/
def cursorFrame (s : State) : List Byte := s.cfg.selCmd :: s.cfg.cursorReset

/-- The Data frame of a framebuffer whose byte `i` is `f i`: the selector, then bytes `0 .. N-1` ascending (R58, R193). -/
def dataFrame (s : State) (f : Nat → Byte) : List Byte := s.cfg.selData :: (List.range s.cfg.frameBytes).map f

/-- The device-init Command frame (R194). -/
def initFrame (s : State) (l : Coord) (p : Addr) : List Byte :=
  s.cfg.selCmd :: (List.range l.toNat).map fun i => s.asset.read ((p.toNat + i) % 2 ^ 32)

/-- How far a character of the font moves the pen; 0 for a character outside the font (R164, R167). -/
def advanceOf (m : Memory) (f : Font) (c : Byte) : Nat :=
  match lookup m f c with
  | none => 0
  | some g => g.xAdvance

/-- A set bit of the glyph `g`, drawn with the pen at the integer `pen` and the baseline operand `yPos`, lands on the pixel
`(px, py)` (R165). -/
def glyphLands (c : Config) (m : Memory) (base : Addr) (g : GlyphRecord) (pen : Int) (yPos : Coord) (px py : Nat) : Prop :=
  ∃ row col, row < g.height ∧ col < g.width ∧
    streamBit m base (g.bitmapOffset * c.offsetUnit.bits + row * g.width + col) = true ∧
    px = landsAt c.width (pen + g.xOffset + col) ∧ py = landsAt c.height (yPos.toNat + g.yOffset + row)

/-- Every Data frame among the events comes right after an answered cursor-reset frame on the same channel (R193). -/
def FlushesPaired (s : State) : Prop :=
  ∀ before ch frame after, s.events = before ++ .write ch frame :: after → frame.head? = some s.cfg.selData →
    ∃ earlier n, before = earlier ++ [.write ch (cursorFrame s), .answer n]

/-- The invariant with the discipline of the frames: an operation about to send the buffer has just sent the cursor reset. -/
def FrameDisciplineInv (s : State) : Prop :=
  Inv s ∧ FlushesPaired s ∧
  ∀ w, s.inProgress = some w → w.remaining.head? = some (.send .buffer) →
    ∃ earlier, s.events = earlier ++ [.write s.ch (cursorFrame s)]

end Sys2Proof.Machine

open Sys2Proof Sys2Proof.Machine

/-! ### Encoding -/

/-- Decoding the descriptor of any operation, with every operand at every value its field admits, gives it back
(R80, R82, R87). -/
def Obligations.DecodeOfEncodeIsTheOperation : Prop :=
  ∀ i : Instr, decode (encode i) = .ok i

/-- Only `OP` and the fields an operation uses matter: descriptors that agree there decode alike, and encoding the
decoded operation gives the descriptor with its unused bits zero (R84). -/
def Obligations.UnusedFieldsAreIgnored : Prop :=
  (∀ w w' : Descriptor, w &&& usedBits (fieldOp w) = w' &&& usedBits (fieldOp w) → decode w = decode w') ∧
  ∀ (w : Descriptor) (i : Instr), decode w = .ok i → encode i = w &&& usedBits (fieldOp w)

/-- A descriptor decodes exactly when its `OP` is one of the 18 assigned values; any other one, taken as the next
descriptor, changes nothing but `STATUS.LAST`, which becomes IllegalOperation, and is left behind (R85, R30). -/
def Obligations.UnassignedOpcodesAreIllegalNoOps : Prop :=
  (∀ w : Descriptor, (∃ i, decode w = .ok i) ↔
    (fieldOp w).toNat ∈ [0x01, 0x02, 0x03, 0x10, 0x11, 0x12, 0x13, 0x14, 0x15, 0x20, 0x21, 0x22, 0x23, 0x24, 0x30, 0x31,
      0x32, 0x33]) ∧
  ∀ (s : State) (w : Descriptor), s.inProgress = none → s.program[s.position]? = some w →
    (∀ i, decode w ≠ .ok i) →
    step s = .next { s with last := .illegalOperation, position := s.position + 1 }

/-- On a byte-wide port byte 0 is `OP`, byte 1 `V`, then `A`, `B`, `C`, `D`, `L`, `P`, each low byte first, and the 16
bytes carry the whole descriptor (R81). -/
def Obligations.PortBytesCarryTheDescriptor : Prop :=
  ∀ w : Descriptor,
    portBytes w = [fieldOp w, fieldV w, (fieldA w).extractLsb' 0 8, (fieldA w).extractLsb' 8 8,
      (fieldB w).extractLsb' 0 8, (fieldB w).extractLsb' 8 8, (fieldC w).extractLsb' 0 8, (fieldC w).extractLsb' 8 8,
      (fieldD w).extractLsb' 0 8, (fieldD w).extractLsb' 8 8, (fieldL w).extractLsb' 0 8, (fieldL w).extractLsb' 8 8,
      (fieldP w).extractLsb' 0 8, (fieldP w).extractLsb' 8 8, (fieldP w).extractLsb' 16 8, (fieldP w).extractLsb' 24 8] ∧
    descriptorOfBytes (portBytes w) = .ok w

/-- Descriptors written out by hand from the fields of rule R80 decode to the operations they stand for. -/
def Obligations.WrittenDescriptorsDecode : Prop :=
  decode 0x00000000000000000000000A00030101 = .ok (.setpx 3 10 1) ∧
  decode 0x00000310000000080005000400010115 = .ok (.icon 1 4 5 8 1 0x310) ∧
  decode 0x00000200000200000000000800010122 = .ok (.wstr 1 8 1 2 0x200) ∧
  decode 0x00000400000400000000000000000130 = .ok (.openDisplay 1 4 0x400)

/-! ### The step -/

/-- When no operation is in progress and the host's next descriptor decodes to `i`, the step is `exec i`, and the position
advances when the operation has ended (R8, R30). That an operation can be left waiting for the channel, and that the
position then stays, is the model's form: logs 8 and 11. -/
def Obligations.StepRunsTheDecodedOperation : Prop :=
  ∀ (s : State) (w : Descriptor) (i : Instr), s.inProgress = none → s.program[s.position]? = some w → decode w = .ok i →
    step s = match exec i s with
      | .next t => .next (if t.inProgress = none then { t with position := t.position + 1 } else t)
      | .fault f => .fault f
      | .refused r => .refused r

/-- The descriptor that `withFetchWord` places is the one the very next step runs (how a program is placed is the model's choice,
log 6). -/
def Obligations.PlacedWordRunsNext : Prop :=
  ∀ (s : State) (nbits w : Nat) (i : Instr), decodeTableWord nbits w = some i →
    step (s.withFetchWord nbits w) = retireResult (exec i (s.withFetchWord nbits w))

/-- Whatever the descriptor and its result code, a step that takes one answers a next state, and so does a step that goes on
with an operation in progress; the position moves by exactly one in the step in which the operation ends, and no descriptor
changes (R30, R62). That an operation can be left waiting, and that the position stays while it waits, is the model's form:
logs 8 and 11. -/
def Obligations.EveryDescriptorAdvancesByOne : Prop :=
  ∀ s : State, s.inProgress ≠ none ∨ s.position < s.program.length →
    ∃ t, step s = .next t ∧ t.program = s.program ∧
      ((t.inProgress = none ∧ t.position = s.position + 1) ∨ (t.inProgress ≠ none ∧ t.position = s.position))

/-- With no descriptor left the PAC waits and keeps all its state (R229, R30; log 5). -/
def Obligations.WaitingKeepsAllState : Prop :=
  ∀ (s : State) (k : Nat), s.inProgress = none → s.program.length ≤ s.position → Host.Core.run core k s = .next s

/-! ### Address unit -/

/-- SETPX gives the clamped pixel the state `on(V)` and changes nothing else, in every lifecycle state (R112). -/
def Obligations.SetpxSetsTheClampedPixel : Prop :=
  (∀ w, fieldOp w = 0x01 → decode w = .ok (.setpx (fieldA w) (fieldB w) (fieldV w))) ∧
  ∀ (s : State) (x y : Coord) (v : Byte), s.fb.wf →
    ∃ t, exec (.setpx x y v) s = .next t ∧
      Drawn s t (decide (v ≠ 0)) fun px py =>
        px = min x.toNat (s.cfg.width - 1) ∧ py = min y.toNat (s.cfg.height - 1)

/-- SETPX writes one byte, the one the address function gives for the clamped pixel, with one bit of it set or cleared;
every other byte reads as before (R110). -/
def Obligations.SetpxWritesOneBitOfOneByte : Prop :=
  ∀ (s : State) (x y : Coord) (v : Byte), s.fb.wf →
    ∃ t, exec (.setpx x y v) s = .next t ∧ t = { s with fb := t.fb, last := .ok } ∧
      pixelByte s.cfg x y =
        min y.toNat (s.cfg.height - 1) / 8 * s.cfg.width + min x.toNat (s.cfg.width - 1) ∧
      (∀ a, a ≠ pixelByte s.cfg x y → t.fb.read a = s.fb.read a) ∧
      ∀ k, k < 8 → (t.fb.read (pixelByte s.cfg x y)).getLsbD k =
        if k = min y.toNat (s.cfg.height - 1) % 8 then decide (v ≠ 0)
        else (s.fb.read (pixelByte s.cfg x y)).getLsbD k

/-- A coordinate in range stays, one that is too large goes to the last valid index, and so does one that an integer
computation drove up to 32768 below zero (R111, R10). -/
def Obligations.ClampGoesToTheLastValidIndex : Prop :=
  ∀ (c : Config) (x y : Coord) (k : Nat),
    (clampX c x).toNat = (if x.toNat < c.width then x.toNat else c.width - 1) ∧
    (clampY c y).toNat = (if y.toNat < c.height then y.toNat else c.height - 1) ∧
    (1 ≤ k → k ≤ 32768 → (clampX c (u16 (-k))).toNat = c.width - 1 ∧ (clampY c (u16 (-k))).toNat = c.height - 1)

/-- The pixel-address function is a bijection between the in-range pixels and the bits of the framebuffer (R51). -/
def Obligations.PixelAddressIsABijection : Prop :=
  ∀ c : Config,
    (∀ x y, byteIndex c x y = y / 8 * c.width + x) ∧
    (∀ x y, x < c.width → y < c.height → byteIndex c x y < c.frameBytes) ∧
    (∀ x y x' y', x < c.width → y < c.height → x' < c.width → y' < c.height →
      byteIndex c x y = byteIndex c x' y' → y % 8 = y' % 8 → x = x' ∧ y = y') ∧
    ∀ i b, i < c.frameBytes → b < 8 →
      i % c.width < c.width ∧ 8 * (i / c.width) + b < c.height ∧
      byteIndex c (i % c.width) (8 * (i / c.width) + b) = i ∧ (8 * (i / c.width) + b) % 8 = b

/-- FILL sets every framebuffer byte to 0xFF for a nonzero value and to 0x00 for zero, whatever was there (R113). -/
def Obligations.FillSetsEveryByte : Prop :=
  (∀ w, fieldOp w = 0x02 → decode w = .ok (.fill (fieldV w))) ∧
  ∀ (s : State) (v : Byte), ∃ t, exec (.fill v) s = .next t ∧ t = { s with fb := t.fb, last := .ok } ∧
    ∀ a, a < s.cfg.frameBytes → t.fb.read a = if v = 0 then 0x00 else 0xFF

/-- CLEAR sets every framebuffer byte to 0x00: exactly the effect of `FILL 0` (R114). -/
def Obligations.ClearIsFillOff : Prop :=
  (∀ w, fieldOp w = 0x03 → decode w = .ok .clear) ∧
  ∀ s : State, exec .clear s = exec (.fill 0) s ∧
    ∃ t, exec .clear s = .next t ∧ t = { s with fb := t.fb, last := .ok } ∧
      ∀ a, a < s.cfg.frameBytes → t.fb.read a = 0x00

/-! ### Raster unit -/

/-- The recurrence of `DrawLine` plots, in order, the pixels of the closed form (R131; its details are from general
knowledge, G1, log 13). -/
def Obligations.LineLoopIsTheClosedForm : Prop :=
  ∀ (c : Config) (p q : Point),
    (linePoints c p q).map (fun r => ((r.1.toNat : Int), (r.2.toNat : Int))) = lineClosedForm c p q

/-- A line plots `max(dx, dy) + 1` pixels, the first and the last are the clamped end points, and all are in range
(R131; the recurrence's details are from general knowledge, G1, log 13). -/
def Obligations.LineRunsFromEndToEnd : Prop :=
  ∀ (c : Config) (p q : Point),
    (linePoints c p q).length =
      max ((sanitize c q).1.toNat - (sanitize c p).1.toNat + ((sanitize c p).1.toNat - (sanitize c q).1.toNat))
        ((sanitize c q).2.toNat - (sanitize c p).2.toNat + ((sanitize c p).2.toNat - (sanitize c q).2.toNat)) + 1 ∧
    (linePoints c p q).head? = some (clampX c p.1, clampY c p.2) ∧
    (linePoints c p q).getLast? = some (clampX c q.1, clampY c q.2) ∧
    ∀ r ∈ linePoints c p q, r.1.toNat < c.width ∧ r.2.toNat < c.height

/-- LINE gives exactly the pixels of the line between the clamped end points the state `on(V)` (R131, R132; the recurrence's
details are from general knowledge, G1, log 13). -/
def Obligations.LineDrawsTheBresenhamLine : Prop :=
  (∀ w, fieldOp w = 0x10 → decode w = .ok (.line (fieldA w) (fieldB w) (fieldC w) (fieldD w) (fieldV w))) ∧
  ∀ (s : State) (x0 y0 x1 y1 : Coord) (v : Byte), s.fb.wf →
    ∃ t, exec (.line x0 y0 x1 y1 v) s = .next t ∧
      Drawn s t (decide (v ≠ 0)) fun px py => ((px : Int), (py : Int)) ∈ lineClosedForm s.cfg (x0, y0) (x1, y1)

/-- RECT draws the outline of the box of the clamped corners, in whatever order the corners are given (R133). -/
def Obligations.RectDrawsTheOutline : Prop :=
  (∀ w, fieldOp w = 0x11 → decode w = .ok (.rect (fieldA w) (fieldB w) (fieldC w) (fieldD w) (fieldV w))) ∧
  ∀ (s : State) (xa ya xb yb : Coord) (v : Byte), s.fb.wf →
    ∃ t, exec (.rect xa ya xb yb v) s = .next t ∧
      Drawn s t (decide (v ≠ 0)) fun px py =>
        let xs := min xa.toNat (s.cfg.width - 1)
        let ys := min ya.toNat (s.cfg.height - 1)
        let xe := min xb.toNat (s.cfg.width - 1)
        let ye := min yb.toNat (s.cfg.height - 1)
        (min xs xe ≤ px ∧ px ≤ max xs xe ∧ (py = ys ∨ py = ye)) ∨
        (min ys ye ≤ py ∧ py ≤ max ys ye ∧ (px = xs ∨ px = xe))

/-- RECTF gives every pixel of the inclusive bounding box of the clamped corners the state `on(V)` and no other (R134). -/
def Obligations.RectfFillsTheBoundingBox : Prop :=
  (∀ w, fieldOp w = 0x12 → decode w = .ok (.rectf (fieldA w) (fieldB w) (fieldC w) (fieldD w) (fieldV w))) ∧
  ∀ (s : State) (xa ya xb yb : Coord) (v : Byte), s.fb.wf →
    ∃ t, exec (.rectf xa ya xb yb v) s = .next t ∧
      Drawn s t (decide (v ≠ 0)) fun px py =>
        let xs := min xa.toNat (s.cfg.width - 1)
        let ys := min ya.toNat (s.cfg.height - 1)
        let xe := min xb.toNat (s.cfg.width - 1)
        let ye := min yb.toNat (s.cfg.height - 1)
        min xs xe ≤ px ∧ px ≤ max xs xe ∧ min ys ye ≤ py ∧ py ≤ max ys ye

/-- The circle stepper in closed form: for `r > 0` it emits `(r-1, 0)` and then, for each `y` from 1 on while `x >= y`,
the largest `x` with `x^2 + y^2 <= r^2`; the `k`-th pair has `y = k`, and radius 0 emits nothing (R135; the recurrence's
details are from general knowledge, G2, log 13). -/
def Obligations.CircleStepperFollowsTheCircle : Prop :=
  ∀ r : Nat,
    (∀ x y : Int, (x, y) ∈ circleSteps r ↔
      0 < r ∧ ((x = r - 1 ∧ y = 0) ∨
        (1 ≤ y ∧ y ≤ x ∧ x * x + y * y ≤ (r : Int) * r ∧ (r : Int) * r < (x + 1) * (x + 1) + y * y))) ∧
    (∀ (k : Nat) (p : Int × Int), (circleSteps r)[k]? = some p → p.2 = (k : Int)) ∧
    (circleSteps r).length ≤ r

/-- More iterations than the model allows the stepper change nothing: it has ended by itself (R140, R135; the recurrence's
details are from general knowledge, G2, log 13). -/
def Obligations.CircleStepperEndsByItself : Prop :=
  ∀ r extra : Nat, circleLoop r (r + extra) (r - 1) 0 1 1 (1 - 2 * r) = circleSteps r

/-- CIRC gives exactly the eight symmetric points of each emitted pair, reduced modulo 65536 and clamped, the state
`on(V)` (R136). -/
def Obligations.CircDrawsTheSymmetricPoints : Prop :=
  (∀ w, fieldOp w = 0x13 → decode w = .ok (.circ (fieldA w) (fieldB w) (fieldC w) (fieldV w))) ∧
  ∀ (s : State) (x0 y0 r : Coord) (v : Byte), s.fb.wf →
    ∃ t, exec (.circ x0 y0 r v) s = .next t ∧
      Drawn s t (decide (v ≠ 0)) fun px py =>
        ∃ x y a b : Int, (x, y) ∈ circleSteps r.toNat ∧
          ((|a| = x ∧ |b| = y) ∨ (|a| = y ∧ |b| = x)) ∧
          px = landsAt s.cfg.width (x0.toNat + a) ∧ py = landsAt s.cfg.height (y0.toNat + b)

/-- A circle outline that lies inside the panel, drawn on a blank framebuffer, is invariant under a quarter turn about its
centre (R136). -/
def Obligations.CircleOutlineIsRotationInvariant : Prop :=
  ∀ (s t : State) (x0 y0 r : Coord) (v : Byte), s.fb = [] → v ≠ 0 →
    r.toNat ≤ x0.toNat + 1 → x0.toNat + r.toNat ≤ s.cfg.width → r.toNat ≤ y0.toNat + 1 →
    y0.toNat + r.toNat ≤ s.cfg.height → exec (.circ x0 y0 r v) s = .next t →
    ∀ a b : Int, |a| < r.toNat → |b| < r.toNat →
      pixel s.cfg t.fb ((x0.toNat : Int) + a).toNat ((y0.toNat : Int) + b).toNat =
        pixel s.cfg t.fb ((x0.toNat : Int) - b).toNat ((y0.toNat : Int) + a).toNat

/-- CIRCF gives exactly the pixels of the four horizontal spans of each emitted pair, each between its two clamped ends,
the state `on(V)` (R137). -/
def Obligations.CircfDrawsTheSpans : Prop :=
  (∀ w, fieldOp w = 0x14 → decode w = .ok (.circf (fieldA w) (fieldB w) (fieldC w) (fieldV w))) ∧
  ∀ (s : State) (x0 y0 r : Coord) (v : Byte), s.fb.wf →
    ∃ t, exec (.circf x0 y0 r v) s = .next t ∧
      Drawn s t (decide (v ≠ 0)) fun px py =>
        ∃ x y h b : Int, (x, y) ∈ circleSteps r.toNat ∧
          ((h = x ∧ |b| = y) ∨ (h = y ∧ |b| = x)) ∧
          py = landsAt s.cfg.height (y0.toNat + b) ∧
          min (landsAt s.cfg.width (x0.toNat - h)) (landsAt s.cfg.width (x0.toNat + h)) ≤ px ∧
          px ≤ max (landsAt s.cfg.width (x0.toNat - h)) (landsAt s.cfg.width (x0.toNat + h))

/-- The disc of CIRCF contains the outline of CIRC for the same operands (R137). -/
def Obligations.DiscContainsOutline : Prop :=
  ∀ (s t u : State) (x0 y0 r : Coord) (v : Byte), s.fb.wf → v ≠ 0 →
    exec (.circ x0 y0 r v) s = .next t → exec (.circf x0 y0 r v) s = .next u →
    ∀ px py, px < s.cfg.width → py < s.cfg.height →
      pixel s.cfg t.fb px py = true → pixel s.cfg u.fb px py = true

/-- ICON: a pixel that cells of the icon land on takes the state of the last of them in column-major order, on when the
cell's stream bit is 1 and the colour is on, off otherwise; every other pixel keeps its state (R138). -/
def Obligations.IconCopiesItsCellsColumnMajor : Prop :=
  (∀ w, fieldOp w = 0x15 →
    decode w = .ok (.icon (fieldA w) (fieldB w) (fieldC w) (fieldD w) (fieldV w) (fieldP w))) ∧
  ∀ (s : State) (x y width height : Coord) (v : Byte) (p : Addr), s.fb.wf →
    ∃ t, exec (.icon x y width height v p) s = .next t ∧ t = { s with fb := t.fb, last := .ok } ∧
      (∀ a, s.cfg.frameBytes ≤ a → t.fb.read a = s.fb.read a) ∧
      ∀ px py, px < s.cfg.width → py < s.cfg.height →
        (∀ col row, col < width.toNat → row < height.toNat →
          px = landsAt s.cfg.width (x.toNat + col) → py = landsAt s.cfg.height (y.toNat + row) →
          (∀ col' row', col' < width.toNat → row' < height.toNat →
            px = landsAt s.cfg.width (x.toNat + col') → py = landsAt s.cfg.height (y.toNat + row') →
            col' * height.toNat + row' ≤ col * height.toNat + row) →
          pixel s.cfg t.fb px py = (iconBit s.asset p (col * height.toNat + row) && decide (v ≠ 0))) ∧
        ((∀ col row, col < width.toNat → row < height.toNat →
          ¬ (px = landsAt s.cfg.width (x.toNat + col) ∧ py = landsAt s.cfg.height (y.toNat + row))) →
          pixel s.cfg t.fb px py = pixel s.cfg s.fb px py)

/-- Every operation that draws through SetPixel ends with a next state in which only framebuffer bytes its calls of
SetPixel store to can differ, `STATUS.LAST` aside (R53, R64, R110). -/
def Obligations.DrawingStoresOnlyToItsPixelBytes : Prop :=
  ∀ (s : State) (i : Instr), drawsByPixel i = true → s.fb.wf →
    ∃ t, exec i s = .next t ∧ t = { s with fb := t.fb, last := t.last } ∧
      (∀ p ∈ callsOf s i, pixelByte s.cfg p.at_.1 p.at_.2 < s.cfg.frameBytes) ∧
      ∀ a, (∀ p ∈ callsOf s i, a ≠ pixelByte s.cfg p.at_.1 p.at_.2) → t.fb.read a = s.fb.read a

/-! ### Asset memory and the glyph unit -/

/-- Half words and words of asset memory are little-endian and addresses wrap modulo 2^32; stream bits are taken from the
most significant end of a glyph byte and of an icon word (R54, R55, R56). -/
def Obligations.AssetReadsAreLittleEndian : Prop :=
  ∀ (m : Memory) (a : Addr) (n : Nat),
    a8 m (Addr.offset a n) = m.read ((a.toNat + n) % 2 ^ 32) ∧
    (a16 m a).toNat = (a8 m a).toNat + 256 * (m.read ((a.toNat + 1) % 2 ^ 32)).toNat ∧
    (a32 m a).toNat = (a8 m a).toNat + 256 * (m.read ((a.toNat + 1) % 2 ^ 32)).toNat +
      65536 * (m.read ((a.toNat + 2) % 2 ^ 32)).toNat + 16777216 * (m.read ((a.toNat + 3) % 2 ^ 32)).toNat ∧
    streamBit m a n = (m.read ((a.toNat + n / 8) % 2 ^ 32)).getLsbD (7 - n % 8) ∧
    iconBit m a n = (a32 m (BitVec.ofNat 32 (a.toNat + 4 * (n / 32)))).getLsbD (31 - n % 32)

/-- The font descriptor and the glyph records are read from the bytes that rules R160 and R161 give them, and a character
outside the font has no glyph (R164). -/
def Obligations.GlyphLookupReadsTheTable : Prop :=
  ∀ (m : Memory) (p : Addr) (c : Byte),
    let f := loadFont m p
    let g := Addr.offset f.glyphBase (8 * (c.toNat - f.firstChar.toNat))
    f.firstChar = a8 m p ∧ f.lastChar = a8 m (p + 1) ∧ f.maxHeight = a8 m (p + 2) ∧ f.glyphBase = a32 m (p + 4) ∧
    f.bitmapBase = a32 m (p + 8) ∧
    (c.toNat < f.firstChar.toNat ∨ f.lastChar.toNat < c.toNat → lookup m f c = none) ∧
    (f.firstChar.toNat ≤ c.toNat → c.toNat ≤ f.lastChar.toNat →
      ∃ r, lookup m f c = some r ∧ r.width = (a8 m g).toNat ∧ r.height = (a8 m (g + 1)).toNat ∧
        r.xAdvance = (a8 m (g + 2)).toNat ∧ r.xOffset = (a8 m (g + 3)).toInt ∧ r.yOffset = (a8 m (g + 4)).toInt ∧
        r.bitmapOffset = (a16 m (g + 6)).toNat)

/-- SETFONT stores the reference, shown by FONT_VALID, and changes nothing else (R163). -/
def Obligations.SetfontStoresTheReference : Prop :=
  (∀ w, fieldOp w = 0x20 → decode w = .ok (.setfont (fieldP w))) ∧
  ∀ (s : State) (p : Addr), exec (.setfont p) s = .next { s with fontPtr := p, last := .ok } ∧
    ∀ t, exec (.setfont p) s = .next t → t.statusWord.getLsbD 6 = decide (p ≠ 0)

/-- With no font bound GLYPH, WSTR and STRB do nothing but record InvalidReference (R162). -/
def Obligations.TextNeedsAFont : Prop :=
  ∀ (s : State) (x y l : Coord) (ch v : Byte) (p : Addr), s.fontPtr = 0 →
    exec (.glyph x y ch v) s = .next { s with last := .invalidReference } ∧
    exec (.wstr x y v l p) s = .next { s with last := .invalidReference } ∧
    exec (.strb l p) s = .next { s with last := .invalidReference }

/-- GLYPH: with no font bound a no-op with InvalidReference; with one, a character of the font gives the pixels its set bits
land on the state `on(V)` and leaves all others, and a character outside the font draws nothing (R165, R166). -/
def Obligations.GlyphDrawsItsSetBits : Prop :=
  (∀ w, fieldOp w = 0x21 →
    decode w = .ok (.glyph (fieldA w) (fieldB w) ((fieldC w).extractLsb' 0 8) (fieldV w))) ∧
  ∀ (s : State) (x y : Coord) (ch v : Byte),
    let f := loadFont s.asset s.fontPtr
    (s.fontPtr = 0 → exec (.glyph x y ch v) s = .next { s with last := .invalidReference }) ∧
    (s.fontPtr ≠ 0 → lookup s.asset f ch = none → exec (.glyph x y ch v) s = .next { s with last := .ok }) ∧
    ∀ g, s.fontPtr ≠ 0 → s.fb.wf → lookup s.asset f ch = some g →
      ∃ t, exec (.glyph x y ch v) s = .next t ∧
        Drawn s t (decide (v ≠ 0)) fun px py => glyphLands s.cfg s.asset f.bitmapBase g x.toNat y px py

/-- WSTR: with no font bound a no-op with InvalidReference; with one, exactly the pixels that a set bit of some character's
glyph lands on take the state `on(V)`, where a character's pen is the start position plus the advances of the characters
before it (R167). -/
def Obligations.WstrDrawsEachGlyphAtItsPen : Prop :=
  (∀ w, fieldOp w = 0x22 → decode w = .ok (.wstr (fieldA w) (fieldB w) (fieldV w) (fieldL w) (fieldP w))) ∧
  ∀ (s : State) (x y l : Coord) (v : Byte) (p : Addr),
    let f := loadFont s.asset s.fontPtr
    let char := fun i => s.asset.read ((p.toNat + i) % 2 ^ 32)
    (s.fontPtr = 0 → exec (.wstr x y v l p) s = .next { s with last := .invalidReference }) ∧
    (s.fontPtr ≠ 0 → s.fb.wf → ∃ t, exec (.wstr x y v l p) s = .next t ∧
      Drawn s t (decide (v ≠ 0)) fun px py =>
        ∃ i g, i < l.toNat ∧ lookup s.asset f (char i) = some g ∧
          glyphLands s.cfg s.asset f.bitmapBase g
            ((x.toNat + ((List.range i).map fun j => advanceOf s.asset f (char j)).sum : Nat) : Int) y px py)

/-- STRB: with no font bound a no-op with InvalidReference; with one, `BW` is the sum of the advances of the in-range
characters other than the carriage return, clamped to `WIDTH`, `BH` is the font's `maxHeight`, and nothing else changes
(R168). -/
def Obligations.StrbMeasuresTheString : Prop :=
  (∀ w, fieldOp w = 0x23 → decode w = .ok (.strb (fieldL w) (fieldP w))) ∧
  ∀ (s : State) (l : Coord) (p : Addr),
    let f := loadFont s.asset s.fontPtr
    let text := (List.range l.toNat).map fun i => s.asset.read ((p.toNat + i) % 2 ^ 32)
    (s.fontPtr = 0 → exec (.strb l p) s = .next { s with last := .invalidReference }) ∧
    (s.fontPtr ≠ 0 → ∃ t, exec (.strb l p) s = .next t ∧ t = { s with boundW := t.boundW, boundH := t.boundH, last := .ok } ∧
      t.boundW.toNat = min ((text.filter (· ≠ 0x0D)).map (advanceOf s.asset f)).sum s.cfg.width ∧
      t.boundH.toNat = f.maxHeight.toNat)

/-- JUST: the three modes with the source's swapped axes, halving toward zero and results reduced modulo 65536; a mode
above 2 changes nothing but records IllegalOperation (R169). -/
def Obligations.JustComputesTheOffsets : Prop :=
  (∀ w, fieldOp w = 0x24 → decode w = .ok (.just (fieldA w) (fieldB w) (fieldV w))) ∧
  ∀ (s : State) (cw ch : Coord) (mode : Byte),
    (mode = 0 → exec (.just cw ch mode) s = .next { s with boundX := 0, boundY := 0, last := .ok }) ∧
    (mode = 1 → exec (.just cw ch mode) s = .next { s with
      boundY := BitVec.ofInt 16 (((cw.toNat : Int) - s.boundW.toNat).tdiv 2)
      boundX := BitVec.ofInt 16 (((ch.toNat : Int) + s.boundH.toNat).tdiv 2)
      last := .ok }) ∧
    (mode = 2 → exec (.just cw ch mode) s = .next { s with
      boundY := cw - s.boundW
      boundX := ch - s.boundH
      last := .ok }) ∧
    (2 < mode.toNat → exec (.just cw ch mode) s = .next { s with last := .illegalOperation })

/-! ### Framer unit -/

/-- OPEN: no channel and an open session are no-ops with their codes, the channel tested first; otherwise, when the channel
answers its three frames, the init frame, the cursor reset and the blank buffer are sent, `FB` is all zero, the session is
`Ready` on the channel, and a wrong count is recorded (R194). -/
def Obligations.OpenStartsTheSession : Prop :=
  (∀ w, fieldOp w = 0x30 → decode w = .ok (.openDisplay (fieldV w) (fieldL w) (fieldP w))) ∧
  ∀ (s : State) (v : Byte) (l : Coord) (p : Addr),
    (v = 0 → exec (.openDisplay v l p) s = .next { s with last := .channelUnavailable }) ∧
    (v ≠ 0 → s.pstate ≠ .closed → exec (.openDisplay v l p) s = .next { s with last := .badState }) ∧
    ∀ a b c rest, v ≠ 0 → s.pstate = .closed → s.answers = a :: b :: c :: rest →
      ∃ t, exec (.openDisplay v l p) s = .next t ∧ (∀ i, t.fb.read i = 0) ∧
        t = { s with
          fb := t.fb
          pstate := .ready
          ch := v
          answers := rest
          events := s.events ++ [.write v (initFrame s l p), .answer a, .write v (cursorFrame s), .answer b,
            .write v (dataFrame s fun _ => 0), .answer c]
          last := if a = l.toNat + 1 ∧ b = s.cfg.cursorReset.length + 1 ∧ c = s.cfg.frameBytes + 1 then .ok
            else .transferSizeMismatch }

/-- SYNC: outside `Ready` a no-op with ChannelUnavailable; in `Ready`, when the channel answers its two frames, exactly the
cursor reset and then the whole buffer are sent and only the channel and `STATUS.LAST` see it (R195). -/
def Obligations.SyncSendsTheBuffer : Prop :=
  (∀ w, fieldOp w = 0x31 → decode w = .ok .sync) ∧
  ∀ s : State,
    (s.pstate ≠ .ready → exec .sync s = .next { s with last := .channelUnavailable }) ∧
    ∀ a b rest, s.pstate = .ready → s.answers = a :: b :: rest →
      exec .sync s = .next { s with
        answers := rest
        events := s.events ++ [.write s.ch (cursorFrame s), .answer a, .write s.ch (dataFrame s s.fb.read), .answer b]
        last := if a = s.cfg.cursorReset.length + 1 ∧ b = s.cfg.frameBytes + 1 then .ok else .transferSizeMismatch }

/-- CLOSE: outside `Ready` a no-op with ChannelUnavailable; in `Ready` without the clean flag it releases the channel and
sends nothing; with it, `FB` is cleared and flushed first (R196). -/
def Obligations.CloseReleasesTheChannel : Prop :=
  (∀ w, fieldOp w = 0x32 → decode w = .ok (.close (fieldV w))) ∧
  ∀ (s : State) (v : Byte),
    (s.pstate ≠ .ready → exec (.close v) s = .next { s with last := .channelUnavailable }) ∧
    (s.pstate = .ready → v = 0 → exec (.close v) s = .next { s with
      pstate := .closed, ch := 0, events := s.events ++ [.release s.ch], last := .ok }) ∧
    ∀ a b rest, s.pstate = .ready → v ≠ 0 → s.answers = a :: b :: rest →
      ∃ t, exec (.close v) s = .next t ∧ (∀ i, t.fb.read i = 0) ∧
        t = { s with
          fb := t.fb
          pstate := .closed
          ch := 0
          answers := rest
          events := s.events ++ [.write s.ch (cursorFrame s), .answer a, .write s.ch (dataFrame s fun _ => 0), .answer b,
            .release s.ch]
          last := if a = s.cfg.cursorReset.length + 1 ∧ b = s.cfg.frameBytes + 1 then .ok else .transferSizeMismatch }

/-- RESET gets the answer that rules R86, R197 and R221 define for the hardware: nothing but `STATUS.LAST` changes, which
becomes IllegalOperation, and the descriptor is left behind. That the model executes it is the model's choice, log 10. The
claims about executions (the two invariants) leave programs with RESET out, as the same rules ask. -/
def Obligations.ResetIsAnIllegalNoOp : Prop :=
  (∀ w, fieldOp w = 0x33 → decode w = .ok (.reset (fieldV w))) ∧
  (∀ (s : State) (v : Byte), exec (.reset v) s = .next { s with last := .illegalOperation }) ∧
  ∀ (s : State) (w : Descriptor), fieldOp w = 0x33 → s.inProgress = none → s.program[s.position]? = some w →
    step s = .next { s with last := .illegalOperation, position := s.position + 1 }

/-- An operation whose first frame the channel does not answer has sent that frame and nothing more, and its result code
is not written (R192, R199). How the model keeps such an operation is its own choice, log 8. -/
def Obligations.FramerWaitsForTheFirstAnswer : Prop :=
  ∀ (s : State) (v : Byte) (l : Coord) (p : Addr), s.answers = [] →
    (v ≠ 0 → s.pstate = .closed → exec (.openDisplay v l p) s = .next { s with
      pstate := .initializing
      ch := v
      inProgress := some ⟨l.toNat + 1, [.blank, .send .cursor, .send .buffer, .ready], false⟩
      events := s.events ++ [.write v (initFrame s l p)] }) ∧
    (s.pstate = .ready → exec .sync s = .next { s with
      inProgress := some ⟨s.cfg.cursorReset.length + 1, [.send .buffer], false⟩
      events := s.events ++ [.write s.ch (cursorFrame s)] }) ∧
    (s.pstate = .ready → v ≠ 0 → ∃ t, exec (.close v) s = .next t ∧ (∀ i, t.fb.read i = 0) ∧ t = { s with
      fb := t.fb
      inProgress := some ⟨s.cfg.cursorReset.length + 1, [.send .buffer, .release], false⟩
      events := s.events ++ [.write s.ch (cursorFrame s)] })

/-- While the channel does not answer, the operation in progress never ends: no number of steps changes anything, no
descriptor is taken and no register read is answered (R199). -/
def Obligations.SilentChannelHangsThePac : Prop :=
  ∀ (s : State) (w : Framing), s.inProgress = some w → s.answers = [] →
    (∀ k, Host.Core.run core k s = .next s) ∧ ∀ n, readRegister s n = none

/-- It does not matter when the channel answers: an operation run with the answers `a` and, if it is then in progress,
continued when the answers `b` have come, ends exactly as the operation run with `a ++ b` from the start; and the same of
the steps: where a step with the answers `a` leaves the operation waiting, the next step, with the answers `b` there, ends
where one step with `a ++ b` does (R8, R192). The form of waiting is the model's, logs 8 and 11. -/
def Obligations.LateAnswersChangeNothing : Prop :=
  (∀ (i : Instr) (s t : State) (a b : List Nat), s.inProgress = none → exec i (s.withAnswers a) = .next t →
    exec i (s.withAnswers (a ++ b)) = .next (match t.inProgress with
      | none => t.withAnswers (t.answers ++ b)
      | some w => resumeFramer w (t.withAnswers b))) ∧
  ∀ (s t : State) (a b : List Nat), s.inProgress = none → step (s.withAnswers a) = .next t →
    step (s.withAnswers (a ++ b)) = match t.inProgress with
      | none => .next (t.withAnswers (t.answers ++ b))
      | some _ => step (t.withAnswers b)

/-- When an answer is there, a step goes on with the operation in progress: it takes the answer as the next event, latches a
wrong count and runs the actions that were left; it takes no descriptor, and the position advances by one if the operation
has then ended (R30, R192). The form of waiting is the model's, logs 8 and 11. -/
def Obligations.AnsweredOperationGoesOn : Prop :=
  ∀ (s : State) (w : Framing) (n : Nat) (more : List Nat), s.inProgress = some w → s.answers = n :: more →
    ∃ r, r = runFramer w.remaining (w.mismatch || decide (n ≠ w.awaited))
        { s with inProgress := none, answers := more, events := s.events ++ [.answer n] } ∧
      step s = .next (if r.inProgress = none then { r with position := s.position + 1 } else r) ∧
      r.program = s.program ∧ r.position = s.position

/-- Answers make a waiting operation end: one step takes one answer for the frame that waits and one for each frame still to
send, as far as they are there. With enough of them the operation ends in that step with `Ok` or TransferSizeMismatch, the
position advances by one and the other answers are left; with fewer it has taken them all and waits again (R192, R199).
The form of waiting is the model's, logs 8 and 11. -/
def Obligations.EnoughAnswersEndTheOperation : Prop :=
  ∀ (s : State) (w : Framing), s.inProgress = some w →
    let frames := (w.remaining.filter sendsFrame).length + 1
    ∃ t, step s = .next t ∧ t.program = s.program ∧ t.answers = s.answers.drop frames ∧
      if frames ≤ s.answers.length then
        t.inProgress = none ∧ t.position = s.position + 1 ∧ (t.last = .ok ∨ t.last = .transferSizeMismatch)
      else
        t.inProgress ≠ none ∧ t.position = s.position ∧ t.last = s.last

/-- The lifecycle: OPEN with a channel from `Closed` binds it and is `Ready` when it ends; CLOSE from `Ready` is `Closed`
when it ends; every other case and every other operation leaves `PSTATE` and `CH` as they are (R190). -/
def Obligations.LifecycleTransitions : Prop :=
  ∀ (i : Instr) (s t : State), s.inProgress = none → exec i s = .next t →
    match i with
    | .openDisplay v _ _ =>
      if v ≠ 0 ∧ s.pstate = .closed then
        t.ch = v ∧ t.pstate = if t.inProgress = none then .ready else .initializing
      else t.pstate = s.pstate ∧ t.ch = s.ch
    | .close _ =>
      if s.pstate = .ready ∧ t.inProgress = none then t.pstate = .closed ∧ t.ch = 0
      else t.pstate = s.pstate ∧ t.ch = s.ch
    | _ => t.pstate = s.pstate ∧ t.ch = s.ch

/-! ### The whole machine -/

/-- An operation that ends with code 1, 2, 4 or 5 has changed nothing except `STATUS.LAST` (R223). -/
def Obligations.FailedOperationsAreNoOps : Prop :=
  ∀ (w : Descriptor) (s t : State), s.inProgress = none → execDescriptor w s = .next t → t.inProgress = none →
    t.last.code ∈ [1, 2, 4, 5] → t = { s with last := t.last }

/-- The operations other than OPEN, SYNC and CLOSE end at once, never touch the channel or the session, and do the same in
every lifecycle state (R3, R140, R190). -/
def Obligations.DrawingNeverTouchesTheChannel : Prop :=
  ∀ (i : Instr) (s : State), usesChannel i = false →
    ∃ t, exec i s = .next t ∧ t.pstate = s.pstate ∧ t.ch = s.ch ∧ t.events = s.events ∧ t.answers = s.answers ∧
      t.inProgress = s.inProgress ∧
      ∀ q h, exec i (s.withSession q h) = .next (t.withSession q h)

/-- Each register is written only by the operations that R20 names for it; the parameters, asset memory, the host's
descriptors and the position by none (R20, R27, R54). -/
def Obligations.RegistersHaveTheirWriters : Prop :=
  ∀ (i : Instr) (s t : State), exec i s = .next t →
    t.cfg = s.cfg ∧ t.asset = s.asset ∧ t.program = s.program ∧ t.position = s.position ∧ t.resets = s.resets ∧
    (t.fontPtr = s.fontPtr ∨ ∃ p, i = .setfont p) ∧
    ((t.boundX = s.boundX ∧ t.boundY = s.boundY) ∨ ∃ w h m, i = .just w h m) ∧
    ((t.boundW = s.boundW ∧ t.boundH = s.boundH) ∨ ∃ l p, i = .strb l p) ∧
    ((t.pstate = s.pstate ∧ t.ch = s.ch) ∨ (∃ v l p, i = .openDisplay v l p) ∨ ∃ v, i = .close v) ∧
    (t.fb = s.fb ∨ drawsByPixel i = true ∨ (∃ v, i = .fill v) ∨ i = .clear ∨ (∃ v l p, i = .openDisplay v l p) ∨
      ∃ v, v ≠ 0 ∧ i = .close v)

/-- Nothing reads `STATUS.LAST`: an operation run from states that differ there ends in states that differ at most there,
and not at all when it ended (R26). -/
def Obligations.LastIsNeverRead : Prop :=
  ∀ (i : Instr) (s t : State) (c : ResultCode), exec i s = .next t →
    ∃ t', exec i (s.withLast c) = .next t' ∧ t'.withLast .ok = t.withLast .ok ∧
      (s.inProgress = none → t.inProgress = none → t' = t)

/-- A well-formed operation that has ended never ends with IllegalOperation, whatever the code before it; an ill-formed one
(JUST with a mode above 2, RESET) always does (R221). -/
def Obligations.OnlyIllFormedOperationsAreIllegal : Prop :=
  ∀ (i : Instr) (s t : State), exec i s = .next t →
    (i.wellFormed = true → s.inProgress = none → t.inProgress = none → t.last ≠ .illegalOperation) ∧
    (i.wellFormed = false → t.last = .illegalOperation)

/-- The register-read port: the registers by number, zero-extended, numbers 9 to 15 zero, and no answer while an operation
is in progress (R28). In `STATUS` the result codes have the numbers 0 to 5 and the lifecycle states the numbers 0 to 2 that
rules R22, R26 and R221 give them. -/
def Obligations.RegisterPortReadsTheRegisters : Prop :=
  ∀ s : State,
    (s.inProgress = none →
      (∃ r, readRegister s 0 = some r ∧ r.toNat = s.cfg.width) ∧
      (∃ r, readRegister s 1 = some r ∧ r.toNat = s.cfg.height) ∧
      (∃ r, readRegister s 2 = some r ∧
        (r.extractLsb' 0 4).toNat = (match s.last with
          | .ok => 0
          | .channelUnavailable => 1
          | .invalidReference => 2
          | .transferSizeMismatch => 3
          | .illegalOperation => 4
          | .badState => 5) ∧
        (r.extractLsb' 4 2).toNat = (match s.pstate with
          | .closed => 0
          | .initializing => 1
          | .ready => 2) ∧
        r.getLsbD 6 = decide (s.fontPtr ≠ 0) ∧ r.extractLsb' 7 25 = 0) ∧
      readRegister s 3 = some s.fontPtr ∧
      (∃ r, readRegister s 4 = some r ∧ r.toNat = s.boundX.toNat) ∧
      (∃ r, readRegister s 5 = some r ∧ r.toNat = s.boundY.toNat) ∧
      (∃ r, readRegister s 6 = some r ∧ r.toNat = s.boundW.toNat) ∧
      (∃ r, readRegister s 7 = some r ∧ r.toNat = s.boundH.toNat) ∧
      (∃ r, readRegister s 8 = some r ∧ r.toNat = s.ch.toNat) ∧
      ∀ n : BitVec 4, 9 ≤ n.toNat → readRegister s n = some 0) ∧
    (s.inProgress ≠ none → ∀ n, readRegister s n = none)

/-- Every instance is one that rule R10 admits, the two selectors differ, a unit of `bitmapOffset` is 8 stream bits or 1, and
`N` is `WIDTH * HEIGHT / 8`; and every panel size R10 admits, with every pair of different selectors, every cursor-reset
payload and either unit, is an instance (R9, R10). -/
def Obligations.ConfigurationsAreTheLegalOnes : Prop :=
  (∀ c : Config, 1 ≤ c.width ∧ c.width ≤ 32768 ∧ 8 ≤ c.height ∧ c.height ≤ 32768 ∧ c.height % 8 = 0 ∧
    c.selData ≠ c.selCmd ∧ (c.offsetUnit.bits = 8 ∨ c.offsetUnit.bits = 1) ∧ c.frameBytes = c.width * c.height / 8) ∧
  ∀ (w h unit : Nat) (x y : Byte) (payload : List Byte), 1 ≤ w → w ≤ 32768 → 8 ≤ h → h ≤ 32768 → h % 8 = 0 → x ≠ y →
    unit = 8 ∨ unit = 1 →
    ∃ c : Config, c.width = w ∧ c.height = h ∧ c.selCmd = x ∧ c.selData = y ∧ c.cursorReset = payload ∧
      c.offsetUnit.bits = unit

/-- The state after reset: the session closed, no channel, no font, bounds and result code 0; the framebuffer a free draw;
and the invariants hold (R35, R240). -/
def Obligations.ResetLeavesTheStatedValues : Prop :=
  State.reset.pstate = .closed ∧ State.reset.ch = 0 ∧ State.reset.fontPtr = 0 ∧ State.reset.boundX = 0 ∧
  State.reset.boundY = 0 ∧ State.reset.boundW = 0 ∧ State.reset.boundH = 0 ∧ State.reset.last.code = 0 ∧
  State.reset.inProgress = none ∧
  (∀ a, a < State.reset.cfg.frameBytes → State.reset.fb.read a = Config.frameDraw 0 a) ∧
  FrameDisciplineInv State.reset

/-- A later platform reset gives the registers the values of power-on reset, abandons an operation in progress, keeps the
parameters and the assets, and the invariant holds after it (R240). Which of the environment's inputs stay is the model's
choice, log 15. -/
def Obligations.PlatformResetIsAReset : Prop :=
  ∀ s : State, Inv s →
    Inv (platformReset s) ∧ (platformReset s).pstate = .closed ∧ (platformReset s).ch = 0 ∧
    (platformReset s).fontPtr = 0 ∧ (platformReset s).boundX = 0 ∧ (platformReset s).boundY = 0 ∧
    (platformReset s).boundW = 0 ∧ (platformReset s).boundH = 0 ∧ (platformReset s).last = .ok ∧
    (platformReset s).inProgress = none ∧ (platformReset s).cfg = s.cfg ∧ (platformReset s).asset = s.asset ∧
    ∀ a, a < s.cfg.frameBytes → (platformReset s).fb.read a = Config.frameDraw (s.resets + 1) a

/-- Every step of a claimable program (one without RESET, of which rules R86 and R197 allow no claim) answers a next state and
keeps the invariant: memories in canonical form and inside their spaces, `CH != 0` exactly when `PSTATE != Closed`,
`Initializing` only inside an OPEN, an operation in progress at a place its rule has, `BW <= WIDTH`, the position inside the
list; and the program stays claimable (R22, R23, R30, R64, R168, R190). What a step that takes RESET does is
`ResetIsAnIllegalNoOp`. -/
def Obligations.EveryStepKeepsTheInvariant : Prop :=
  ∀ s : State, Inv s → ClaimableProgram s → ∃ t, step s = .next t ∧ Inv t ∧ ClaimableProgram t

/-- Every Data frame the PAC ever sends comes right after an answered cursor-reset frame on the same channel: every step of a
claimable program (one without RESET, R86 and R197) keeps this, with what an operation in progress needs for it (R193,
R201). -/
def Obligations.EveryDataFrameFollowsACursorReset : Prop :=
  ∀ s t : State, FrameDisciplineInv s → ClaimableProgram s → step s = .next t →
    FrameDisciplineInv t ∧ ClaimableProgram t
end

