-- ==== Sys2Proof/Laws/Memory.lean ====
section
/-! SUPPORT. The laws of the byte memories: reading after writing, and that every operation keeps the canonical form. -/

namespace Sys2Proof.Machine

@[simp] theorem memory_read_nil (a : Nat) : Memory.read [] a = unlistedByte := rfl

theorem memory_read_cons (k : Nat) (b : Byte) (rest : Memory) (a : Nat) :
    Memory.read ((k, b) :: rest) a =
      if a < k then unlistedByte else if a = k then b else Memory.read rest a := rfl

/-- An address below every listed one reads as an unlisted byte. -/
theorem memory_read_below {m : Memory} {a : Nat} (h : ∀ c ∈ m, a < c.1) : m.read a = unlistedByte := by
  cases m with
  | nil => rfl
  | cons c rest =>
    obtain ⟨k, b⟩ := c
    rw [memory_read_cons, if_pos (h (k, b) (by simp))]

/-- Reading the address just written gives the byte written. -/
theorem memory_read_write_same {m : Memory} (hm : m.wf) (a : Nat) (v : Byte) : (m.write a v).read a = v := by
  induction m with
  | nil => unfold Memory.write; split <;> simp_all [memory_read_cons]
  | cons c rest ih =>
    obtain ⟨k, b⟩ := c
    obtain ⟨hp, hz⟩ := hm
    rw [List.pairwise_cons] at hp
    unfold Memory.write
    by_cases h1 : a < k
    · by_cases hv : v = unlistedByte <;> simp [h1, hv, memory_read_cons]
    · by_cases h2 : a = k
      · subst h2
        by_cases hv : v = unlistedByte
        · simp only [lt_irrefl, ↓reduceIte, hv]
          exact memory_read_below fun c hc => hp.1 c hc
        · simp [hv, memory_read_cons]
      · simp only [h1, h2, ↓reduceIte, memory_read_cons]
        exact ih ⟨hp.2, fun c hc => hz c (by simp [hc])⟩

/-- Reading any other address gives what it held. -/
theorem memory_read_write_other {m : Memory} (hm : m.wf) {a d : Nat} (h : d ≠ a) (v : Byte) :
    (m.write a v).read d = m.read d := by
  induction m with
  | nil =>
    unfold Memory.write
    split
    · rfl
    · simp only [memory_read_cons, h, ↓reduceIte, memory_read_nil, ite_self]
  | cons c rest ih =>
    obtain ⟨k, b⟩ := c
    obtain ⟨hp, hz⟩ := hm
    rw [List.pairwise_cons] at hp
    unfold Memory.write
    by_cases h1 : a < k
    · by_cases hv : v = unlistedByte
      · simp [h1, hv]
      · simp only [h1, hv, ↓reduceIte, memory_read_cons, h]
        by_cases h3 : d < a
        · simp [h3, show d < k by omega]
        · simp [h3]
    · by_cases h2 : a = k
      · subst h2
        by_cases hv : v = unlistedByte
        · simp only [lt_irrefl, ↓reduceIte, hv, memory_read_cons, h]
          split
          · rename_i h4
            exact memory_read_below fun c hc => lt_trans h4 (hp.1 c hc)
          · rfl
        · simp [hv, memory_read_cons, h]
      · simp only [h1, h2, ↓reduceIte, memory_read_cons]
        rw [ih ⟨hp.2, fun c hc => hz c (by simp [hc])⟩]

/-- A cell of the written memory is the new one or an old one. -/
theorem memory_mem_write {m : Memory} {a : Nat} {v : Byte} {c : Host.Cell} (h : c ∈ m.write a v) :
    c ∈ m ∨ (c = (a, v) ∧ v ≠ unlistedByte) := by
  induction m with
  | nil => unfold Memory.write at h; split at h <;> simp_all
  | cons d rest ih =>
    obtain ⟨k, b⟩ := d
    unfold Memory.write at h
    by_cases h1 : a < k <;> by_cases h2 : a = k <;> by_cases hv : v = unlistedByte <;>
      simp only [h1, h2, hv, ↓reduceIte, List.mem_cons, lt_irrefl] at h ⊢ <;> aesop

/-- A write keeps the canonical form. -/
theorem memory_write_wf {m : Memory} (hm : m.wf) (a : Nat) (v : Byte) : (m.write a v).wf := by
  refine ⟨?_, fun c hc => ?_⟩
  · induction m with
    | nil => unfold Memory.write; split <;> simp
    | cons d rest ih =>
      obtain ⟨k, b⟩ := d
      obtain ⟨hp, hz⟩ := hm
      have hp' := List.pairwise_cons.mp hp
      have hrest := ih ⟨hp'.2, fun c hc => hz c (by simp [hc])⟩
      unfold Memory.write
      by_cases h1 : a < k
      · by_cases hv : v = unlistedByte
        · simpa [h1, hv] using hp
        · simp only [h1, hv, ↓reduceIte, List.pairwise_cons]
          refine ⟨fun c hc => ?_, hp'.1, hp'.2⟩
          rcases List.mem_cons.mp hc with rfl | hc
          · exact h1
          · exact lt_trans h1 (hp'.1 c hc)
      · by_cases h2 : a = k
        · subst h2
          by_cases hv : v = unlistedByte
          · simpa [hv] using hp'.2
          · simp only [lt_irrefl, hv, ↓reduceIte, List.pairwise_cons]
            exact ⟨hp'.1, hp'.2⟩
        · simp only [h1, h2, ↓reduceIte, List.pairwise_cons]
          refine ⟨fun c hc => ?_, hrest⟩
          rcases memory_mem_write hc with hc | ⟨rfl, -⟩
          · exact hp'.1 c hc
          · show k < a
            omega
  · rcases memory_mem_write hc with hc | ⟨rfl, hv⟩
    · exact hm.2 c hc
    · exact hv

/-- A write inside a bound keeps the cells inside it. -/
theorem memory_write_within {m : Memory} {n a : Nat} (hm : m.within n) (ha : a < n) (v : Byte) :
    (m.write a v).within n := by
  intro c hc
  rcases memory_mem_write hc with hc | ⟨rfl, -⟩
  · exact hm c hc
  · exact ha

/-- A memory given by a function is in canonical form. -/
theorem memory_ofFn_wf (n : Nat) (f : Nat → Byte) : (Memory.ofFn n f).wf := by
  refine ⟨List.Pairwise.filter _ (List.pairwise_map.mpr ?_), fun c hc => ?_⟩
  · exact List.pairwise_lt_range
  · simpa using (List.mem_filter.mp hc).2

/-- A memory given by a function on `0 .. n-1` lists nothing from `n` on. -/
theorem memory_ofFn_within (n : Nat) (f : Nat → Byte) : (Memory.ofFn n f).within n := by
  intro c hc
  obtain ⟨i, hi, rfl⟩ := List.mem_map.mp (List.mem_filter.mp hc).1
  simpa using hi

/-- In a canonical memory the byte of a listed address is its cell's. -/
theorem memory_read_of_mem {m : Memory} (hm : m.wf) {a : Nat} {b : Byte} (h : (a, b) ∈ m) : m.read a = b := by
  induction m with
  | nil => simp at h
  | cons d rest ih =>
    obtain ⟨k, e⟩ := d
    obtain ⟨hp, hz⟩ := hm
    have hp' := List.pairwise_cons.mp hp
    rcases List.mem_cons.mp h with heq | hin
    · cases heq; simp [memory_read_cons]
    · have hk : k < a := hp'.1 _ hin
      rw [memory_read_cons, if_neg (by omega), if_neg (by omega)]
      exact ih ⟨hp'.2, fun c hc => hz c (by simp [hc])⟩ hin

/-- An address that no cell has reads as an unlisted byte. -/
theorem memory_read_of_not_mem {m : Memory} {a : Nat} (h : ∀ c ∈ m, c.1 ≠ a) : m.read a = unlistedByte := by
  induction m with
  | nil => rfl
  | cons d rest ih =>
    obtain ⟨k, e⟩ := d
    have hk : k ≠ a := h (k, e) (by simp)
    rw [memory_read_cons, if_neg (fun he : a = k => hk he.symm)]
    split
    · rfl
    · exact ih fun c hc => h c (by simp [hc])

/-- What a memory given by a function reads as. -/
theorem memory_read_ofFn (n : Nat) (f : Nat → Byte) (a : Nat) :
    (Memory.ofFn n f).read a = if a < n then f a else unlistedByte := by
  by_cases hz : a < n ∧ f a ≠ unlistedByte
  · rw [if_pos hz.1]
    refine memory_read_of_mem (memory_ofFn_wf n f) ?_
    simp [Memory.ofFn, hz.1, hz.2]
  · rw [memory_read_of_not_mem]
    · split
      · rename_i h; by_contra hne; exact hz ⟨h, fun he => hne he.symm⟩
      · rfl
    · rintro ⟨k, b⟩ hc rfl
      simp only [Memory.ofFn, List.mem_filter, List.mem_map, List.mem_range, Prod.mk.injEq,
        decide_eq_true_eq] at hc
      obtain ⟨⟨i, hi, rfl, rfl⟩, hb⟩ := hc
      exact hz ⟨hi, hb⟩

end Sys2Proof.Machine
end

