-- ==== Sys2Proof/Laws/State.lean ====
section
/-! SUPPORT. One lemma per field per update of State, true by rfl, so that no later proof unfolds a record update. -/

namespace Sys2Proof.Machine

@[simp] theorem State.withFrame_cfg (s : State) (m : Memory) : (s.withFrame m).cfg = s.cfg := rfl
@[simp] theorem State.withFrame_fb (s : State) (m : Memory) : (s.withFrame m).fb = m := rfl
@[simp] theorem State.withFrame_asset (s : State) (m : Memory) : (s.withFrame m).asset = s.asset := rfl
@[simp] theorem State.withFrame_pstate (s : State) (m : Memory) : (s.withFrame m).pstate = s.pstate := rfl
@[simp] theorem State.withFrame_ch (s : State) (m : Memory) : (s.withFrame m).ch = s.ch := rfl
@[simp] theorem State.withFrame_fontPtr (s : State) (m : Memory) : (s.withFrame m).fontPtr = s.fontPtr := rfl
@[simp] theorem State.withFrame_boundX (s : State) (m : Memory) : (s.withFrame m).boundX = s.boundX := rfl
@[simp] theorem State.withFrame_boundY (s : State) (m : Memory) : (s.withFrame m).boundY = s.boundY := rfl
@[simp] theorem State.withFrame_boundW (s : State) (m : Memory) : (s.withFrame m).boundW = s.boundW := rfl
@[simp] theorem State.withFrame_boundH (s : State) (m : Memory) : (s.withFrame m).boundH = s.boundH := rfl
@[simp] theorem State.withFrame_last (s : State) (m : Memory) : (s.withFrame m).last = s.last := rfl
@[simp] theorem State.withFrame_inProgress (s : State) (m : Memory) : (s.withFrame m).inProgress = s.inProgress := rfl
@[simp] theorem State.withFrame_program (s : State) (m : Memory) : (s.withFrame m).program = s.program := rfl
@[simp] theorem State.withFrame_position (s : State) (m : Memory) : (s.withFrame m).position = s.position := rfl
@[simp] theorem State.withFrame_answers (s : State) (m : Memory) : (s.withFrame m).answers = s.answers := rfl
@[simp] theorem State.withFrame_events (s : State) (m : Memory) : (s.withFrame m).events = s.events := rfl
@[simp] theorem State.withFrame_resets (s : State) (m : Memory) : (s.withFrame m).resets = s.resets := rfl

@[simp] theorem State.withLast_cfg (s : State) (c : ResultCode) : (s.withLast c).cfg = s.cfg := rfl
@[simp] theorem State.withLast_fb (s : State) (c : ResultCode) : (s.withLast c).fb = s.fb := rfl
@[simp] theorem State.withLast_asset (s : State) (c : ResultCode) : (s.withLast c).asset = s.asset := rfl
@[simp] theorem State.withLast_pstate (s : State) (c : ResultCode) : (s.withLast c).pstate = s.pstate := rfl
@[simp] theorem State.withLast_ch (s : State) (c : ResultCode) : (s.withLast c).ch = s.ch := rfl
@[simp] theorem State.withLast_fontPtr (s : State) (c : ResultCode) : (s.withLast c).fontPtr = s.fontPtr := rfl
@[simp] theorem State.withLast_boundX (s : State) (c : ResultCode) : (s.withLast c).boundX = s.boundX := rfl
@[simp] theorem State.withLast_boundY (s : State) (c : ResultCode) : (s.withLast c).boundY = s.boundY := rfl
@[simp] theorem State.withLast_boundW (s : State) (c : ResultCode) : (s.withLast c).boundW = s.boundW := rfl
@[simp] theorem State.withLast_boundH (s : State) (c : ResultCode) : (s.withLast c).boundH = s.boundH := rfl
@[simp] theorem State.withLast_last (s : State) (c : ResultCode) : (s.withLast c).last = c := rfl
@[simp] theorem State.withLast_inProgress (s : State) (c : ResultCode) : (s.withLast c).inProgress = s.inProgress := rfl
@[simp] theorem State.withLast_program (s : State) (c : ResultCode) : (s.withLast c).program = s.program := rfl
@[simp] theorem State.withLast_position (s : State) (c : ResultCode) : (s.withLast c).position = s.position := rfl
@[simp] theorem State.withLast_answers (s : State) (c : ResultCode) : (s.withLast c).answers = s.answers := rfl
@[simp] theorem State.withLast_events (s : State) (c : ResultCode) : (s.withLast c).events = s.events := rfl
@[simp] theorem State.withLast_resets (s : State) (c : ResultCode) : (s.withLast c).resets = s.resets := rfl

@[simp] theorem State.withSession_cfg (s : State) (p : Lifecycle) (h : Byte) : (s.withSession p h).cfg = s.cfg := rfl
@[simp] theorem State.withSession_fb (s : State) (p : Lifecycle) (h : Byte) : (s.withSession p h).fb = s.fb := rfl
@[simp] theorem State.withSession_asset (s : State) (p : Lifecycle) (h : Byte) : (s.withSession p h).asset = s.asset := rfl
@[simp] theorem State.withSession_pstate (s : State) (p : Lifecycle) (h : Byte) : (s.withSession p h).pstate = p := rfl
@[simp] theorem State.withSession_ch (s : State) (p : Lifecycle) (h : Byte) : (s.withSession p h).ch = h := rfl
@[simp] theorem State.withSession_fontPtr (s : State) (p : Lifecycle) (h : Byte) : (s.withSession p h).fontPtr = s.fontPtr := rfl
@[simp] theorem State.withSession_boundX (s : State) (p : Lifecycle) (h : Byte) : (s.withSession p h).boundX = s.boundX := rfl
@[simp] theorem State.withSession_boundY (s : State) (p : Lifecycle) (h : Byte) : (s.withSession p h).boundY = s.boundY := rfl
@[simp] theorem State.withSession_boundW (s : State) (p : Lifecycle) (h : Byte) : (s.withSession p h).boundW = s.boundW := rfl
@[simp] theorem State.withSession_boundH (s : State) (p : Lifecycle) (h : Byte) : (s.withSession p h).boundH = s.boundH := rfl
@[simp] theorem State.withSession_last (s : State) (p : Lifecycle) (h : Byte) : (s.withSession p h).last = s.last := rfl
@[simp] theorem State.withSession_inProgress (s : State) (p : Lifecycle) (h : Byte) : (s.withSession p h).inProgress = s.inProgress := rfl
@[simp] theorem State.withSession_program (s : State) (p : Lifecycle) (h : Byte) : (s.withSession p h).program = s.program := rfl
@[simp] theorem State.withSession_position (s : State) (p : Lifecycle) (h : Byte) : (s.withSession p h).position = s.position := rfl
@[simp] theorem State.withSession_answers (s : State) (p : Lifecycle) (h : Byte) : (s.withSession p h).answers = s.answers := rfl
@[simp] theorem State.withSession_events (s : State) (p : Lifecycle) (h : Byte) : (s.withSession p h).events = s.events := rfl
@[simp] theorem State.withSession_resets (s : State) (p : Lifecycle) (h : Byte) : (s.withSession p h).resets = s.resets := rfl

@[simp] theorem State.withFont_cfg (s : State) (f : Addr) : (s.withFont f).cfg = s.cfg := rfl
@[simp] theorem State.withFont_fb (s : State) (f : Addr) : (s.withFont f).fb = s.fb := rfl
@[simp] theorem State.withFont_asset (s : State) (f : Addr) : (s.withFont f).asset = s.asset := rfl
@[simp] theorem State.withFont_pstate (s : State) (f : Addr) : (s.withFont f).pstate = s.pstate := rfl
@[simp] theorem State.withFont_ch (s : State) (f : Addr) : (s.withFont f).ch = s.ch := rfl
@[simp] theorem State.withFont_fontPtr (s : State) (f : Addr) : (s.withFont f).fontPtr = f := rfl
@[simp] theorem State.withFont_boundX (s : State) (f : Addr) : (s.withFont f).boundX = s.boundX := rfl
@[simp] theorem State.withFont_boundY (s : State) (f : Addr) : (s.withFont f).boundY = s.boundY := rfl
@[simp] theorem State.withFont_boundW (s : State) (f : Addr) : (s.withFont f).boundW = s.boundW := rfl
@[simp] theorem State.withFont_boundH (s : State) (f : Addr) : (s.withFont f).boundH = s.boundH := rfl
@[simp] theorem State.withFont_last (s : State) (f : Addr) : (s.withFont f).last = s.last := rfl
@[simp] theorem State.withFont_inProgress (s : State) (f : Addr) : (s.withFont f).inProgress = s.inProgress := rfl
@[simp] theorem State.withFont_program (s : State) (f : Addr) : (s.withFont f).program = s.program := rfl
@[simp] theorem State.withFont_position (s : State) (f : Addr) : (s.withFont f).position = s.position := rfl
@[simp] theorem State.withFont_answers (s : State) (f : Addr) : (s.withFont f).answers = s.answers := rfl
@[simp] theorem State.withFont_events (s : State) (f : Addr) : (s.withFont f).events = s.events := rfl
@[simp] theorem State.withFont_resets (s : State) (f : Addr) : (s.withFont f).resets = s.resets := rfl

@[simp] theorem State.withOrigin_cfg (s : State) (x y : Coord) : (s.withOrigin x y).cfg = s.cfg := rfl
@[simp] theorem State.withOrigin_fb (s : State) (x y : Coord) : (s.withOrigin x y).fb = s.fb := rfl
@[simp] theorem State.withOrigin_asset (s : State) (x y : Coord) : (s.withOrigin x y).asset = s.asset := rfl
@[simp] theorem State.withOrigin_pstate (s : State) (x y : Coord) : (s.withOrigin x y).pstate = s.pstate := rfl
@[simp] theorem State.withOrigin_ch (s : State) (x y : Coord) : (s.withOrigin x y).ch = s.ch := rfl
@[simp] theorem State.withOrigin_fontPtr (s : State) (x y : Coord) : (s.withOrigin x y).fontPtr = s.fontPtr := rfl
@[simp] theorem State.withOrigin_boundX (s : State) (x y : Coord) : (s.withOrigin x y).boundX = x := rfl
@[simp] theorem State.withOrigin_boundY (s : State) (x y : Coord) : (s.withOrigin x y).boundY = y := rfl
@[simp] theorem State.withOrigin_boundW (s : State) (x y : Coord) : (s.withOrigin x y).boundW = s.boundW := rfl
@[simp] theorem State.withOrigin_boundH (s : State) (x y : Coord) : (s.withOrigin x y).boundH = s.boundH := rfl
@[simp] theorem State.withOrigin_last (s : State) (x y : Coord) : (s.withOrigin x y).last = s.last := rfl
@[simp] theorem State.withOrigin_inProgress (s : State) (x y : Coord) : (s.withOrigin x y).inProgress = s.inProgress := rfl
@[simp] theorem State.withOrigin_program (s : State) (x y : Coord) : (s.withOrigin x y).program = s.program := rfl
@[simp] theorem State.withOrigin_position (s : State) (x y : Coord) : (s.withOrigin x y).position = s.position := rfl
@[simp] theorem State.withOrigin_answers (s : State) (x y : Coord) : (s.withOrigin x y).answers = s.answers := rfl
@[simp] theorem State.withOrigin_events (s : State) (x y : Coord) : (s.withOrigin x y).events = s.events := rfl
@[simp] theorem State.withOrigin_resets (s : State) (x y : Coord) : (s.withOrigin x y).resets = s.resets := rfl

@[simp] theorem State.withExtent_cfg (s : State) (w h : Coord) : (s.withExtent w h).cfg = s.cfg := rfl
@[simp] theorem State.withExtent_fb (s : State) (w h : Coord) : (s.withExtent w h).fb = s.fb := rfl
@[simp] theorem State.withExtent_asset (s : State) (w h : Coord) : (s.withExtent w h).asset = s.asset := rfl
@[simp] theorem State.withExtent_pstate (s : State) (w h : Coord) : (s.withExtent w h).pstate = s.pstate := rfl
@[simp] theorem State.withExtent_ch (s : State) (w h : Coord) : (s.withExtent w h).ch = s.ch := rfl
@[simp] theorem State.withExtent_fontPtr (s : State) (w h : Coord) : (s.withExtent w h).fontPtr = s.fontPtr := rfl
@[simp] theorem State.withExtent_boundX (s : State) (w h : Coord) : (s.withExtent w h).boundX = s.boundX := rfl
@[simp] theorem State.withExtent_boundY (s : State) (w h : Coord) : (s.withExtent w h).boundY = s.boundY := rfl
@[simp] theorem State.withExtent_boundW (s : State) (w h : Coord) : (s.withExtent w h).boundW = w := rfl
@[simp] theorem State.withExtent_boundH (s : State) (w h : Coord) : (s.withExtent w h).boundH = h := rfl
@[simp] theorem State.withExtent_last (s : State) (w h : Coord) : (s.withExtent w h).last = s.last := rfl
@[simp] theorem State.withExtent_inProgress (s : State) (w h : Coord) : (s.withExtent w h).inProgress = s.inProgress := rfl
@[simp] theorem State.withExtent_program (s : State) (w h : Coord) : (s.withExtent w h).program = s.program := rfl
@[simp] theorem State.withExtent_position (s : State) (w h : Coord) : (s.withExtent w h).position = s.position := rfl
@[simp] theorem State.withExtent_answers (s : State) (w h : Coord) : (s.withExtent w h).answers = s.answers := rfl
@[simp] theorem State.withExtent_events (s : State) (w h : Coord) : (s.withExtent w h).events = s.events := rfl
@[simp] theorem State.withExtent_resets (s : State) (w h : Coord) : (s.withExtent w h).resets = s.resets := rfl

@[simp] theorem State.emit_cfg (s : State) (e : ChannelEvent) : (s.emit e).cfg = s.cfg := rfl
@[simp] theorem State.emit_fb (s : State) (e : ChannelEvent) : (s.emit e).fb = s.fb := rfl
@[simp] theorem State.emit_asset (s : State) (e : ChannelEvent) : (s.emit e).asset = s.asset := rfl
@[simp] theorem State.emit_pstate (s : State) (e : ChannelEvent) : (s.emit e).pstate = s.pstate := rfl
@[simp] theorem State.emit_ch (s : State) (e : ChannelEvent) : (s.emit e).ch = s.ch := rfl
@[simp] theorem State.emit_fontPtr (s : State) (e : ChannelEvent) : (s.emit e).fontPtr = s.fontPtr := rfl
@[simp] theorem State.emit_boundX (s : State) (e : ChannelEvent) : (s.emit e).boundX = s.boundX := rfl
@[simp] theorem State.emit_boundY (s : State) (e : ChannelEvent) : (s.emit e).boundY = s.boundY := rfl
@[simp] theorem State.emit_boundW (s : State) (e : ChannelEvent) : (s.emit e).boundW = s.boundW := rfl
@[simp] theorem State.emit_boundH (s : State) (e : ChannelEvent) : (s.emit e).boundH = s.boundH := rfl
@[simp] theorem State.emit_last (s : State) (e : ChannelEvent) : (s.emit e).last = s.last := rfl
@[simp] theorem State.emit_inProgress (s : State) (e : ChannelEvent) : (s.emit e).inProgress = s.inProgress := rfl
@[simp] theorem State.emit_program (s : State) (e : ChannelEvent) : (s.emit e).program = s.program := rfl
@[simp] theorem State.emit_position (s : State) (e : ChannelEvent) : (s.emit e).position = s.position := rfl
@[simp] theorem State.emit_answers (s : State) (e : ChannelEvent) : (s.emit e).answers = s.answers := rfl
@[simp] theorem State.emit_events (s : State) (e : ChannelEvent) : (s.emit e).events = s.events ++ [e] := rfl
@[simp] theorem State.emit_resets (s : State) (e : ChannelEvent) : (s.emit e).resets = s.resets := rfl

@[simp] theorem State.withAnswers_cfg (s : State) (l : List Nat) : (s.withAnswers l).cfg = s.cfg := rfl
@[simp] theorem State.withAnswers_fb (s : State) (l : List Nat) : (s.withAnswers l).fb = s.fb := rfl
@[simp] theorem State.withAnswers_asset (s : State) (l : List Nat) : (s.withAnswers l).asset = s.asset := rfl
@[simp] theorem State.withAnswers_pstate (s : State) (l : List Nat) : (s.withAnswers l).pstate = s.pstate := rfl
@[simp] theorem State.withAnswers_ch (s : State) (l : List Nat) : (s.withAnswers l).ch = s.ch := rfl
@[simp] theorem State.withAnswers_fontPtr (s : State) (l : List Nat) : (s.withAnswers l).fontPtr = s.fontPtr := rfl
@[simp] theorem State.withAnswers_boundX (s : State) (l : List Nat) : (s.withAnswers l).boundX = s.boundX := rfl
@[simp] theorem State.withAnswers_boundY (s : State) (l : List Nat) : (s.withAnswers l).boundY = s.boundY := rfl
@[simp] theorem State.withAnswers_boundW (s : State) (l : List Nat) : (s.withAnswers l).boundW = s.boundW := rfl
@[simp] theorem State.withAnswers_boundH (s : State) (l : List Nat) : (s.withAnswers l).boundH = s.boundH := rfl
@[simp] theorem State.withAnswers_last (s : State) (l : List Nat) : (s.withAnswers l).last = s.last := rfl
@[simp] theorem State.withAnswers_inProgress (s : State) (l : List Nat) : (s.withAnswers l).inProgress = s.inProgress := rfl
@[simp] theorem State.withAnswers_program (s : State) (l : List Nat) : (s.withAnswers l).program = s.program := rfl
@[simp] theorem State.withAnswers_position (s : State) (l : List Nat) : (s.withAnswers l).position = s.position := rfl
@[simp] theorem State.withAnswers_answers (s : State) (l : List Nat) : (s.withAnswers l).answers = l := rfl
@[simp] theorem State.withAnswers_events (s : State) (l : List Nat) : (s.withAnswers l).events = s.events := rfl
@[simp] theorem State.withAnswers_resets (s : State) (l : List Nat) : (s.withAnswers l).resets = s.resets := rfl

@[simp] theorem State.withProgress_cfg (s : State) (p : Option Framing) : (s.withProgress p).cfg = s.cfg := rfl
@[simp] theorem State.withProgress_fb (s : State) (p : Option Framing) : (s.withProgress p).fb = s.fb := rfl
@[simp] theorem State.withProgress_asset (s : State) (p : Option Framing) : (s.withProgress p).asset = s.asset := rfl
@[simp] theorem State.withProgress_pstate (s : State) (p : Option Framing) : (s.withProgress p).pstate = s.pstate := rfl
@[simp] theorem State.withProgress_ch (s : State) (p : Option Framing) : (s.withProgress p).ch = s.ch := rfl
@[simp] theorem State.withProgress_fontPtr (s : State) (p : Option Framing) : (s.withProgress p).fontPtr = s.fontPtr := rfl
@[simp] theorem State.withProgress_boundX (s : State) (p : Option Framing) : (s.withProgress p).boundX = s.boundX := rfl
@[simp] theorem State.withProgress_boundY (s : State) (p : Option Framing) : (s.withProgress p).boundY = s.boundY := rfl
@[simp] theorem State.withProgress_boundW (s : State) (p : Option Framing) : (s.withProgress p).boundW = s.boundW := rfl
@[simp] theorem State.withProgress_boundH (s : State) (p : Option Framing) : (s.withProgress p).boundH = s.boundH := rfl
@[simp] theorem State.withProgress_last (s : State) (p : Option Framing) : (s.withProgress p).last = s.last := rfl
@[simp] theorem State.withProgress_inProgress (s : State) (p : Option Framing) : (s.withProgress p).inProgress = p := rfl
@[simp] theorem State.withProgress_program (s : State) (p : Option Framing) : (s.withProgress p).program = s.program := rfl
@[simp] theorem State.withProgress_position (s : State) (p : Option Framing) : (s.withProgress p).position = s.position := rfl
@[simp] theorem State.withProgress_answers (s : State) (p : Option Framing) : (s.withProgress p).answers = s.answers := rfl
@[simp] theorem State.withProgress_events (s : State) (p : Option Framing) : (s.withProgress p).events = s.events := rfl
@[simp] theorem State.withProgress_resets (s : State) (p : Option Framing) : (s.withProgress p).resets = s.resets := rfl

@[simp] theorem State.withPosition_cfg (s : State) (n : Nat) : (s.withPosition n).cfg = s.cfg := rfl
@[simp] theorem State.withPosition_fb (s : State) (n : Nat) : (s.withPosition n).fb = s.fb := rfl
@[simp] theorem State.withPosition_asset (s : State) (n : Nat) : (s.withPosition n).asset = s.asset := rfl
@[simp] theorem State.withPosition_pstate (s : State) (n : Nat) : (s.withPosition n).pstate = s.pstate := rfl
@[simp] theorem State.withPosition_ch (s : State) (n : Nat) : (s.withPosition n).ch = s.ch := rfl
@[simp] theorem State.withPosition_fontPtr (s : State) (n : Nat) : (s.withPosition n).fontPtr = s.fontPtr := rfl
@[simp] theorem State.withPosition_boundX (s : State) (n : Nat) : (s.withPosition n).boundX = s.boundX := rfl
@[simp] theorem State.withPosition_boundY (s : State) (n : Nat) : (s.withPosition n).boundY = s.boundY := rfl
@[simp] theorem State.withPosition_boundW (s : State) (n : Nat) : (s.withPosition n).boundW = s.boundW := rfl
@[simp] theorem State.withPosition_boundH (s : State) (n : Nat) : (s.withPosition n).boundH = s.boundH := rfl
@[simp] theorem State.withPosition_last (s : State) (n : Nat) : (s.withPosition n).last = s.last := rfl
@[simp] theorem State.withPosition_inProgress (s : State) (n : Nat) : (s.withPosition n).inProgress = s.inProgress := rfl
@[simp] theorem State.withPosition_program (s : State) (n : Nat) : (s.withPosition n).program = s.program := rfl
@[simp] theorem State.withPosition_position (s : State) (n : Nat) : (s.withPosition n).position = n := rfl
@[simp] theorem State.withPosition_answers (s : State) (n : Nat) : (s.withPosition n).answers = s.answers := rfl
@[simp] theorem State.withPosition_events (s : State) (n : Nat) : (s.withPosition n).events = s.events := rfl
@[simp] theorem State.withPosition_resets (s : State) (n : Nat) : (s.withPosition n).resets = s.resets := rfl

end Sys2Proof.Machine
end

