-- ==== Sys2Proof/Laws/Ops.lean ====
section
/-! SUPPORT. What the shared operations do, said once: the parameters' bounds, clamping, the pixel-address function,
SetPixel, FillAll, sequences of SetPixel, the ends of an operation, taking a descriptor, the register port. -/

namespace Sys2Proof.Machine

/-! ### Parameters (R9, R10) -/

theorem config_width_bounds (c : Config) : 1 ≤ c.width ∧ c.width ≤ 32768 := by
  have := c.lastColumn.isLt
  unfold Config.width
  omega

theorem config_height_bounds (c : Config) : 8 ≤ c.height ∧ c.height ≤ 32768 ∧ c.height % 8 = 0 := by
  have := c.lastPage.isLt
  unfold Config.height
  omega

/-- The framebuffer has one byte per column and page. -/
theorem config_frameBytes_eq (c : Config) : c.frameBytes = (c.height / 8) * c.width := by
  unfold Config.frameBytes Config.height
  rw [show c.width * (8 * (c.lastPage.val + 1)) = 8 * ((c.lastPage.val + 1) * c.width) by ring]
  rw [Nat.mul_div_cancel_left _ (by norm_num), Nat.mul_div_cancel_left _ (by norm_num)]

/-! ### Clamping (R111) -/

@[simp] theorem clampX_toNat (c : Config) (x : Coord) : (clampX c x).toNat = min x.toNat (c.width - 1) := by
  have := x.isLt
  simp only [clampX, BitVec.toNat_ofNat]
  omega

@[simp] theorem clampY_toNat (c : Config) (y : Coord) : (clampY c y).toNat = min y.toNat (c.height - 1) := by
  have := y.isLt
  simp only [clampY, BitVec.toNat_ofNat]
  omega

theorem clampX_lt (c : Config) (x : Coord) : (clampX c x).toNat < c.width := by
  have := config_width_bounds c
  rw [clampX_toNat]; omega

theorem clampY_lt (c : Config) (y : Coord) : (clampY c y).toNat < c.height := by
  have := config_height_bounds c
  rw [clampY_toNat]; omega

/-! ### The pixel-address function (R51) -/

/-- An in-range pixel lies in the framebuffer. -/
theorem byteIndex_lt {c : Config} {x y : Nat} (hx : x < c.width) (hy : y < c.height) :
    byteIndex c x y < c.frameBytes := by
  rw [config_frameBytes_eq]
  have h8 : y / 8 + 1 ≤ c.height / 8 := by
    have := config_height_bounds c
    omega
  calc byteIndex c x y < y / 8 * c.width + c.width := by unfold byteIndex; omega
    _ = (y / 8 + 1) * c.width := by ring
    _ ≤ c.height / 8 * c.width := Nat.mul_le_mul_right _ h8

/-- Pixels of one byte are in one column and one page. -/
theorem byteIndex_inj {c : Config} {x y x' y' : Nat} (hx : x < c.width) (hx' : x' < c.width)
    (h : byteIndex c x y = byteIndex c x' y') : x = x' ∧ y / 8 = y' / 8 := by
  unfold byteIndex at h
  have hw : 0 < c.width := by omega
  have hm : x = x' := by
    have := congrArg (· % c.width) h
    simpa [Nat.mul_add_mod', Nat.mod_eq_of_lt hx, Nat.mod_eq_of_lt hx'] using this
  subst hm
  exact ⟨rfl, Nat.eq_of_mul_eq_mul_right hw (by omega)⟩

/-- The bits of a pixel's mask. -/
theorem bitMask_getLsbD (y k : Nat) (hk : k < 8) : (bitMask y).getLsbD k = decide (k = y % 8) := by
  unfold bitMask
  rw [BitVec.getLsbD_shiftLeft]
  have h8 : y % 8 < 8 := Nat.mod_lt _ (by norm_num)
  simp only [hk, decide_true, Bool.true_and, BitVec.getLsbD_one]
  by_cases h : k = y % 8
  · simp [h]
  · by_cases hlt : k < y % 8
    · simp [hlt, h]
    · have : k - y % 8 ≠ 0 := by omega
      simp [h, this]

/-! ### SetPixel (R110) -/

theorem pixelByte_lt (c : Config) (x y : Coord) : pixelByte c x y < c.frameBytes :=
  byteIndex_lt (clampX_lt c x) (clampY_lt c y)

theorem setPixel_wf {c : Config} {m : Memory} (hm : m.wf) (x y : Coord) (on : Bool) : (setPixel c m x y on).wf :=
  memory_write_wf hm _ _

theorem setPixel_within {c : Config} {m : Memory} (hm : m.within c.frameBytes) (x y : Coord) (on : Bool) :
    (setPixel c m x y on).within c.frameBytes :=
  memory_write_within hm (pixelByte_lt c x y) _

/-- SetPixel touches no byte but the pixel's. -/
theorem setPixel_read_other {c : Config} {m : Memory} (hm : m.wf) {x y : Coord} {a : Nat} (h : a ≠ pixelByte c x y)
    (on : Bool) : (setPixel c m x y on).read a = m.read a :=
  memory_read_write_other hm h _

/-- SetPixel gives the clamped pixel the state and leaves every other pixel as it was. -/
theorem setPixel_pixel {c : Config} {m : Memory} (hm : m.wf) (x y : Coord) (on : Bool) {px py : Nat}
    (hx : px < c.width) :
    pixel c (setPixel c m x y on) px py =
      if px = (clampX c x).toNat ∧ py = (clampY c y).toNat then on else pixel c m px py := by
  unfold pixel
  by_cases hb : byteIndex c px py = pixelByte c x y
  · obtain ⟨h1, h2⟩ := byteIndex_inj hx (clampX_lt c x) hb
    have hr : (setPixel c m x y on).read (byteIndex c px py) =
        if on then m.read (byteIndex c px py) ||| bitMask (clampY c y).toNat
        else m.read (byteIndex c px py) &&& ~~~bitMask (clampY c y).toNat := by
      unfold setPixel
      rw [hb]
      exact memory_read_write_same hm _ _
    have h8 : py % 8 < 8 := Nat.mod_lt _ (by norm_num)
    rw [hr]
    generalize (clampY c y).toNat = yc at h2 ⊢
    generalize m.read (byteIndex c px py) = old
    by_cases he : py = yc
    · subst he
      cases on <;> simp only [h1, and_self, ↓reduceIte, Bool.false_eq_true, BitVec.getLsbD_or,
        BitVec.getLsbD_and, BitVec.getLsbD_not, bitMask_getLsbD _ _ h8, h8, decide_true, Bool.or_true, Bool.not_true,
        Bool.and_false]
    · have hne : py % 8 ≠ yc % 8 := by omega
      cases on <;> simp only [he, hne, and_false, ↓reduceIte, Bool.false_eq_true, BitVec.getLsbD_or,
        BitVec.getLsbD_and, BitVec.getLsbD_not, bitMask_getLsbD _ _ h8, h8, decide_true, decide_false, Bool.or_false,
        Bool.not_false, Bool.and_true]
  · rw [setPixel_read_other hm hb, if_neg]
    rintro ⟨rfl, rfl⟩
    exact hb rfl

/-! ### Sequences of SetPixel -/

/-- Whether a call of SetPixel lands on the pixel `(px, py)`. -/
def Plot.hits (c : Config) (px py : Nat) (p : Plot) : Bool :=
  decide (px = (clampX c p.at_.1).toNat ∧ py = (clampY c p.at_.2).toNat)

theorem plotAll_wf {c : Config} (ps : List Plot) {m : Memory} (hm : m.wf) : (plotAll c m ps).wf := by
  induction ps generalizing m with
  | nil => exact hm
  | cons p ps ih => exact ih (setPixel_wf hm _ _ _)

theorem plotAll_within {c : Config} (ps : List Plot) {m : Memory} (hm : m.within c.frameBytes) :
    (plotAll c m ps).within c.frameBytes := by
  induction ps generalizing m with
  | nil => exact hm
  | cons p ps ih => exact ih (setPixel_within hm _ _ _)

/-- The last call that lands on a pixel decides its state; a pixel no call lands on keeps its state. -/
theorem plotAll_pixel {c : Config} (ps : List Plot) {m : Memory} (hm : m.wf) {px py : Nat} (hx : px < c.width) :
    pixel c (plotAll c m ps) px py =
      match ps.reverse.find? (Plot.hits c px py) with
      | some p => p.on
      | none => pixel c m px py := by
  induction ps generalizing m with
  | nil => rfl
  | cons p ps ih =>
    show pixel c (plotAll c (setPixel c m p.at_.1 p.at_.2 p.on) ps) px py = _
    rw [ih (setPixel_wf hm _ _ _), List.reverse_cons, List.find?_append]
    cases hfind : ps.reverse.find? (Plot.hits c px py) with
    | some q => rfl
    | none =>
      simp only [Option.none_or, List.find?_singleton]
      rw [setPixel_pixel hm _ _ _ hx]
      by_cases hh : px = (clampX c p.at_.1).toNat ∧ py = (clampY c p.at_.2).toNat
      · rw [if_pos hh, if_pos (by simpa [Plot.hits] using hh)]
      · rw [if_neg hh, if_neg (by simpa [Plot.hits] using hh)]

/-- A byte that no call's pixel lies in keeps its value. -/
theorem plotAll_read_other {c : Config} (ps : List Plot) {m : Memory} (hm : m.wf) {a : Nat}
    (h : ∀ p ∈ ps, a ≠ pixelByte c p.at_.1 p.at_.2) : (plotAll c m ps).read a = m.read a := by
  induction ps generalizing m with
  | nil => rfl
  | cons p ps ih =>
    show (plotAll c (setPixel c m p.at_.1 p.at_.2 p.on) ps).read a = _
    rw [ih (setPixel_wf hm _ _ _) fun q hq => h q (by simp [hq]), setPixel_read_other hm (h p (by simp))]

/-- With one pixel state throughout, exactly the pixels the points land on take it. -/
theorem plotAll_plots_pixel {c : Config} (on : Bool) (ps : List Point) {m : Memory} (hm : m.wf) {px py : Nat}
    (hx : px < c.width) :
    pixel c (plotAll c m (plots on ps)) px py =
      if ∃ p ∈ ps, px = (clampX c p.1).toNat ∧ py = (clampY c p.2).toNat then on else pixel c m px py := by
  rw [plotAll_pixel _ hm hx]
  cases hfind : (plots on ps).reverse.find? (Plot.hits c px py) with
  | some q =>
    have hq := List.mem_of_find?_eq_some hfind
    have hh := List.find?_some hfind
    simp only [plots, List.mem_reverse, List.mem_map] at hq
    obtain ⟨p, hp, rfl⟩ := hq
    rw [if_pos ⟨p, hp, by simpa [Plot.hits] using hh⟩]
  | none =>
    rw [if_neg]
    rintro ⟨p, hp, hh⟩
    have := List.find?_eq_none.mp hfind ⟨p, on⟩ (by simp [plots, hp])
    exact this (by simpa [Plot.hits] using hh)

/-! ### FillAll (R117) -/

theorem fillAll_wf (c : Config) (on : Bool) : (fillAll c on).wf := memory_ofFn_wf _ _

theorem fillAll_within (c : Config) (on : Bool) : (fillAll c on).within c.frameBytes := memory_ofFn_within _ _

theorem fillAll_read (c : Config) (on : Bool) {a : Nat} (ha : a < c.frameBytes) :
    (fillAll c on).read a = if on then 0xFF else 0x00 := by
  rw [fillAll, memory_read_ofFn, if_pos ha]

/-! ### The ends of an operation (R13, R223) -/

theorem done_eq_next {s t : State} (h : done s = .next t) : t = s.withLast .ok := by
  cases h; rfl

theorem raise_eq_next {c : ResultCode} {s t : State} (h : raise c s = .next t) : t = s.withLast c := by
  cases h; rfl

theorem draw_eq_next {ps : List Plot} {s t : State} (h : draw ps s = .next t) :
    t = (s.withFrame (plotAll s.cfg s.fb ps)).withLast .ok := by
  cases h; rfl

/-! ### Descriptors (R30) and registers (R28) -/

theorem retire_idle {s : State} (h : s.inProgress = none) : s.retire = s.withPosition (s.position + 1) := by
  simp [State.retire, h]

theorem retire_busy {s : State} {w : Framing} (h : s.inProgress = some w) : s.retire = s := by
  simp [State.retire, h]

/-- The descriptor placed at an index is the one found there. -/
theorem placeAt_getElem (l : List Descriptor) (n : Nat) (w : Descriptor) : (placeAt l n w)[n]? = some w := by
  induction n generalizing l with
  | zero => cases l <;> rfl
  | succ n ih => cases l <;> simpa [placeAt] using ih _

/-- Every other descriptor that was there stays. -/
theorem placeAt_getElem_other (l : List Descriptor) {n k : Nat} (h : k ≠ n) (hk : k < l.length) (w : Descriptor) :
    (placeAt l n w)[k]? = l[k]? := by
  induction n generalizing l k with
  | zero =>
    cases l with
    | nil => simp at hk
    | cons d rest => cases k with
      | zero => exact absurd rfl h
      | succ k => rfl
  | succ n ih =>
    cases l with
    | nil => simp at hk
    | cons d rest => cases k with
      | zero => rfl
      | succ k =>
        simpa [placeAt] using ih rest (by omega) (by simpa using hk)

theorem readRegister_idle {s : State} (h : s.inProgress = none) (n : BitVec 4) :
    readRegister s n = some (s.register n) := by
  simp [readRegister, h]

theorem readRegister_busy {s : State} {w : Framing} (h : s.inProgress = some w) (n : BitVec 4) :
    readRegister s n = none := by
  simp [readRegister, h]

end Sys2Proof.Machine
end

