-- ==== Sys2Proof/Laws/Font.lean ====
section
/-! SUPPORT. What the glyph unit's shared operations do, said once. -/

namespace Sys2Proof.Machine

/-- An operation that needs a font ends with `InvalidReference` while none is bound (R162). -/
theorem withBoundFont_unbound {s : State} (h : s.fontPtr = 0) (k : Font → Result) :
    withBoundFont s k = raise .invalidReference s := by
  simp [withBoundFont, h]

/-- With a font bound it goes on with that font's descriptor. -/
theorem withBoundFont_bound {s : State} (h : s.fontPtr ≠ 0) (k : Font → Result) :
    withBoundFont s k = k (loadFont s.asset s.fontPtr) := by
  unfold withBoundFont
  rw [if_neg h]

/-- A character outside the font's range has no glyph (R164). -/
theorem lookup_outside {m : Memory} {f : Font} {c : Byte}
    (h : c.toNat < f.firstChar.toNat ∨ f.lastChar.toNat < c.toNat) : lookup m f c = none := by
  unfold lookup
  rw [if_pos h]

/-- A character of the font has the record at its place in the glyph table (R161, R164). -/
theorem lookup_inside {m : Memory} {f : Font} {c : Byte} (h1 : f.firstChar.toNat ≤ c.toNat)
    (h2 : c.toNat ≤ f.lastChar.toNat) :
    lookup m f c = some (loadGlyph m (Addr.offset f.glyphBase (8 * (c.toNat - f.firstChar.toNat)))) := by
  unfold lookup
  rw [if_neg (by omega)]

/-- A point of a glyph is the place of one of its set stream bits (R165). -/
theorem mem_glyphPoints {c : Config} {m : Memory} {base : Addr} {g : GlyphRecord} {xPos yPos : Coord} {p : Point} :
    p ∈ glyphPoints c m base g xPos yPos ↔
      ∃ row col, row < g.height ∧ col < g.width ∧
        streamBit m base (g.bitmapOffset * c.offsetUnit.bits + row * g.width + col) = true ∧
        p = (u16 (xPos.toNat + g.xOffset + col), u16 (yPos.toNat + g.yOffset + row)) := by
  unfold glyphPoints
  split
  · rename_i h
    constructor
    · intro hp; simp at hp
    · rintro ⟨row, col, hr, hc, -⟩; omega
  · simp only [List.mem_flatMap, List.mem_range, List.mem_filterMap, Option.ite_none_right_eq_some,
      Option.some.injEq]
    constructor
    · rintro ⟨row, hr, col, hc, hb, rfl⟩
      exact ⟨row, col, hr, hc, hb, rfl⟩
    · rintro ⟨row, col, hr, hc, hb, rfl⟩
      exact ⟨row, hr, col, hc, hb, rfl⟩

end Sys2Proof.Machine
end

