-- ==== Sys2Proof/Laws/Framer.lean ====
section
/-! SUPPORT. What the framer's shared operations can do, said once: which state they leave alone, that they keep the
framebuffer's form, and what a run of actions is, action by action. -/

namespace Sys2Proof.Machine

@[simp] theorem runFramer_nil (m : Bool) (s : State) : runFramer [] m s = s.withLast (doneCode m) := rfl

@[simp] theorem runFramer_blank (rest : List FramerAction) (m : Bool) (s : State) :
    runFramer (.blank :: rest) m s = runFramer rest m (s.withFrame (fillAll s.cfg false)) := rfl

@[simp] theorem runFramer_ready (rest : List FramerAction) (m : Bool) (s : State) :
    runFramer (.ready :: rest) m s = runFramer rest m (s.withSession .ready s.ch) := rfl

@[simp] theorem runFramer_release (rest : List FramerAction) (m : Bool) (s : State) :
    runFramer (.release :: rest) m s = runFramer rest m ((s.emit (.release s.ch)).withSession .closed 0) := rfl

/-- A frame the channel has not answered leaves the rest in progress. -/
theorem runFramer_send_waits {s : State} (h : s.answers = []) (f : FrameKind) (rest : List FramerAction) (m : Bool) :
    runFramer (.send f :: rest) m s =
      (s.emit (.write s.ch (frameBytesOf s f))).withProgress (some ⟨(frameBytesOf s f).length, rest, m⟩) := by
  simp [runFramer, h]

/-- A frame the channel has answered: the event, the answer, the latch, and on to the rest. -/
theorem runFramer_send_answered {s : State} {n : Nat} {more : List Nat} (h : s.answers = n :: more) (f : FrameKind)
    (rest : List FramerAction) (m : Bool) :
    runFramer (.send f :: rest) m s =
      runFramer rest (m || n != (frameBytesOf s f).length)
        (((s.emit (.write s.ch (frameBytesOf s f))).withAnswers more).emit (.answer n)) := by
  simp [runFramer, h]

/-- The state that no framer action changes. -/
structure SameBesidesFraming (s t : State) : Prop where
  cfg : t.cfg = s.cfg
  asset : t.asset = s.asset
  fontPtr : t.fontPtr = s.fontPtr
  boundX : t.boundX = s.boundX
  boundY : t.boundY = s.boundY
  boundW : t.boundW = s.boundW
  boundH : t.boundH = s.boundH
  program : t.program = s.program
  position : t.position = s.position
  resets : t.resets = s.resets

/-- Framer actions change only the framebuffer, the session, the result code, the operation in progress, the answers and
the events. -/
theorem runFramer_frame (acts : List FramerAction) (m : Bool) (s : State) :
    SameBesidesFraming s (runFramer acts m s) := by
  induction acts generalizing m s with
  | nil => constructor <;> rfl
  | cons a rest ih =>
    cases a with
    | blank => obtain ⟨h1, h2, h3, h4, h5, h6, h7, h8, h9, h10⟩ := ih m (s.withFrame (fillAll s.cfg false)); constructor <;> assumption
    | ready => obtain ⟨h1, h2, h3, h4, h5, h6, h7, h8, h9, h10⟩ := ih m (s.withSession .ready s.ch); constructor <;> assumption
    | release =>
      obtain ⟨h1, h2, h3, h4, h5, h6, h7, h8, h9, h10⟩ := ih m ((s.emit (.release s.ch)).withSession .closed 0)
      constructor <;> assumption
    | send f =>
      cases ha : s.answers with
      | nil => rw [runFramer_send_waits ha]; constructor <;> rfl
      | cons n more =>
        rw [runFramer_send_answered ha]
        obtain ⟨h1, h2, h3, h4, h5, h6, h7, h8, h9, h10⟩ := ih (m || n != (frameBytesOf s f).length)
          (((s.emit (.write s.ch (frameBytesOf s f))).withAnswers more).emit (.answer n))
        constructor <;> assumption

/-- Framer actions keep the framebuffer's canonical form and its bound. -/
theorem runFramer_keeps_frame_form (acts : List FramerAction) (m : Bool) {s : State}
    (h : s.fb.wf ∧ s.fb.within s.cfg.frameBytes) :
    (runFramer acts m s).fb.wf ∧ (runFramer acts m s).fb.within s.cfg.frameBytes := by
  induction acts generalizing m s with
  | nil => exact h
  | cons a rest ih =>
    cases a with
    | blank => exact ih m (s := s.withFrame (fillAll s.cfg false)) ⟨fillAll_wf _ _, fillAll_within _ _⟩
    | ready => exact ih m (s := s.withSession .ready s.ch) h
    | release => exact ih m (s := (s.emit (.release s.ch)).withSession .closed 0) h
    | send f =>
      cases ha : s.answers with
      | nil => rw [runFramer_send_waits ha]; exact h
      | cons n more =>
        rw [runFramer_send_answered ha]
        exact ih _ (s := ((s.emit (.write s.ch (frameBytesOf s f))).withAnswers more).emit (.answer n)) h

/-- Without an answer the operation in progress stays where it is (R199). -/
theorem resumeFramer_waits {s : State} (h : s.answers = []) (w : Framing) : resumeFramer w s = s := by
  simp [resumeFramer, h]

/-- With an answer the operation in progress goes on from it. -/
theorem resumeFramer_answered {s : State} {n : Nat} {more : List Nat} (h : s.answers = n :: more) (w : Framing) :
    resumeFramer w s = runFramer w.remaining (w.mismatch || n != w.awaited)
      (((s.withProgress none).withAnswers more).emit (.answer n)) := by
  simp [resumeFramer, h]

/-! ### The framer's operations, case by case -/

theorem execOpen_noChannel (s : State) (l : Coord) (p : Addr) :
    execOpen 0 l p s = raise .channelUnavailable s := rfl

theorem execOpen_open {s : State} {v : Byte} (hv : v ≠ 0) (h : s.pstate ≠ .closed) (l : Coord) (p : Addr) :
    execOpen v l p s = raise .badState s := by
  unfold execOpen
  rw [if_neg hv]
  cases hp : s.pstate <;> simp_all

theorem execOpen_closed {s : State} {v : Byte} (hv : v ≠ 0) (h : s.pstate = .closed) (l : Coord) (p : Addr) :
    execOpen v l p s = .next (runFramer [.send (.init p l), .blank, .send .cursor, .send .buffer, .ready] false
      (s.withSession .initializing v)) := by
  unfold execOpen
  rw [if_neg hv, h]
  rfl

theorem execSync_notReady {s : State} (h : s.pstate ≠ .ready) : execSync s = raise .channelUnavailable s := by
  unfold execSync
  cases hp : s.pstate <;> simp_all

theorem execSync_ready {s : State} (h : s.pstate = .ready) :
    execSync s = .next (runFramer [.send .cursor, .send .buffer] false s) := by
  unfold execSync
  rw [h]
  rfl

theorem execClose_notReady {s : State} (h : s.pstate ≠ .ready) (v : Byte) :
    execClose v s = raise .channelUnavailable s := by
  unfold execClose
  cases hp : s.pstate <;> simp_all

theorem execClose_keep {s : State} (h : s.pstate = .ready) : execClose 0 s = .next (runFramer [.release] false s) := by
  unfold execClose
  rw [h]
  rfl

theorem execClose_clean {s : State} {v : Byte} (hv : v ≠ 0) (h : s.pstate = .ready) :
    execClose v s = .next (runFramer [.blank, .send .cursor, .send .buffer, .release] false s) := by
  unfold execClose
  rw [h, if_neg hv]
  rfl

end Sys2Proof.Machine
end

