-- ==== Sys2Proof/Laws/Raster.lean ====
section
/-! SUPPORT. What the raster unit's shared operations do, said once. -/

namespace Sys2Proof.Machine

/-- A sanitised point is in range (R130). -/
theorem sanitize_inRange (c : Config) (p : Point) :
    (sanitize c p).1.toNat < c.width ∧ (sanitize c p).2.toNat < c.height :=
  ⟨clampX_lt c p.1, clampY_lt c p.2⟩

/-- An in-range point is its own sanitised point. -/
theorem sanitize_of_inRange {c : Config} {p : Point} (hx : p.1.toNat < c.width) (hy : p.2.toNat < c.height) :
    sanitize c p = p := by
  refine Prod.ext (BitVec.eq_of_toNat_eq ?_) (BitVec.eq_of_toNat_eq ?_)
  · show (clampX c p.1).toNat = _
    rw [clampX_toNat]; omega
  · show (clampY c p.2).toNat = _
    rw [clampY_toNat]; omega

/-- Sanitising twice is sanitising once. -/
@[simp] theorem sanitize_sanitize (c : Config) (p : Point) : sanitize c (sanitize c p) = sanitize c p :=
  sanitize_of_inRange (sanitize_inRange c p).1 (sanitize_inRange c p).2

/-- A line depends on its end points only through their sanitised places (R131). -/
theorem linePoints_sanitize (c : Config) (p q : Point) : linePoints c (sanitize c p) (sanitize c q) = linePoints c p q := by
  simp [linePoints]

/-- A coordinate range lists its coordinates. -/
theorem mem_coordRange {lo hi : Nat} {x : Coord} (h : hi < 65536) :
    x ∈ coordRange lo hi ↔ lo ≤ x.toNat ∧ x.toNat ≤ hi := by
  simp only [coordRange, List.mem_map, List.mem_range'_1]
  constructor
  · rintro ⟨k, ⟨h1, h2⟩, rfl⟩
    simp only [BitVec.toNat_ofNat]
    omega
  · rintro ⟨h1, h2⟩
    exact ⟨x.toNat, ⟨h1, by omega⟩, by simp⟩

/-- The cells of an icon are those of its columns and rows (R138). -/
theorem mem_iconPlots {m : Memory} {x y width height : Coord} {on : Bool} {words : Addr} {p : Plot} :
    p ∈ iconPlots m x y width height on words ↔
      ∃ col row, col < width.toNat ∧ row < height.toNat ∧ p = iconCell m x y height on words col row := by
  simp only [iconPlots, List.mem_flatMap, List.mem_range, List.mem_map]
  constructor
  · rintro ⟨col, hc, row, hr, rfl⟩
    exact ⟨col, row, hc, hr, rfl⟩
  · rintro ⟨col, row, hc, hr, rfl⟩
    exact ⟨col, hc, row, hr, rfl⟩

end Sys2Proof.Machine
end

