-- ==== Sys2Proof/Laws/Exec.lean ====
section
/-! SUPPORT. What an operation can do, said once: every operation answers a next state, and that state is one of nine
forms. A statement about every operation is a case analysis over the forms, not over the 18 meanings. -/

namespace Sys2Proof.Machine

/-- The forms a next state of an operation has. -/
inductive ExecForm (s : State) : State → Prop
  /-- A drawing operation: a framebuffer in form if the one before was, and `Ok`. -/
  | drawn (m : Memory) (h : s.fb.wf ∧ s.fb.within s.cfg.frameBytes → m.wf ∧ m.within s.cfg.frameBytes) :
      ExecForm s ((s.withFrame m).withLast .ok)
  /-- A failure: nothing but the code. -/
  | failed (c : ResultCode) (h : c ∈ [.channelUnavailable, .invalidReference, .illegalOperation, .badState]) :
      ExecForm s (s.withLast c)
  /-- SETFONT. -/
  | font (p : Addr) : ExecForm s ((s.withFont p).withLast .ok)
  /-- JUST. -/
  | origin (x y : Coord) : ExecForm s ((s.withOrigin x y).withLast .ok)
  /-- STRB. -/
  | extent (w h : Coord) (hw : w.toNat ≤ s.cfg.width) (hh : h.toNat ≤ 255) :
      ExecForm s ((s.withExtent w h).withLast .ok)
  /-- OPEN that runs. -/
  | opened (v : Byte) (l : Coord) (p : Addr) (hv : v ≠ 0) (h : s.pstate = .closed) :
      ExecForm s (runFramer [.send (.init p l), .blank, .send .cursor, .send .buffer, .ready] false
        (s.withSession .initializing v))
  /-- SYNC that runs. -/
  | synced (h : s.pstate = .ready) : ExecForm s (runFramer [.send .cursor, .send .buffer] false s)
  /-- CLOSE that runs, without the clean flag. -/
  | closed (h : s.pstate = .ready) : ExecForm s (runFramer [.release] false s)
  /-- CLOSE that runs, with the clean flag. -/
  | cleaned (h : s.pstate = .ready) :
      ExecForm s (runFramer [.blank, .send .cursor, .send .buffer, .release] false s)

/-- A sequence of SetPixel calls keeps the framebuffer's form. -/
theorem plotAll_keeps_form (c : Config) (ps : List Plot) {m : Memory} (h : m.wf ∧ m.within c.frameBytes) :
    (plotAll c m ps).wf ∧ (plotAll c m ps).within c.frameBytes :=
  ⟨plotAll_wf ps h.1, plotAll_within ps h.2⟩

/-- A drawing operation has the drawn form. -/
theorem draw_form (ps : List Plot) (s : State) : ∃ t, draw ps s = .next t ∧ ExecForm s t :=
  ⟨_, rfl, .drawn _ (plotAll_keeps_form _ _)⟩

/-- A failure has the failed form. -/
theorem raise_form {c : ResultCode} (h : c ∈ [.channelUnavailable, .invalidReference, .illegalOperation, .badState])
    (s : State) : ∃ t, raise c s = .next t ∧ ExecForm s t :=
  ⟨_, rfl, .failed c h⟩

/-- Filling the framebuffer has the drawn form. -/
theorem fill_form (on : Bool) (s : State) :
    ∃ t, done (s.withFrame (fillAll s.cfg on)) = .next t ∧ ExecForm s t :=
  ⟨_, rfl, .drawn _ fun _ => ⟨fillAll_wf _ _, fillAll_within _ _⟩⟩

/-- An operation that needs a font fails, or does what it does with the font. -/
theorem text_form {s : State} {k : Font → Result} (h : ∀ f, ∃ t, k f = .next t ∧ ExecForm s t) :
    ∃ t, withBoundFont s k = .next t ∧ ExecForm s t := by
  by_cases hf : s.fontPtr = 0
  · rw [withBoundFont_unbound hf]
    exact raise_form (by decide) s
  · rw [withBoundFont_bound hf]
    exact h _

/-- Every operation answers a next state of one of the forms. -/
theorem exec_form (i : Instr) (s : State) : ∃ t, exec i s = .next t ∧ ExecForm s t := by
  cases i with
  | setpx x y v => exact draw_form _ s
  | line x0 y0 x1 y1 v => exact draw_form _ s
  | rect x0 y0 x1 y1 v => exact draw_form _ s
  | rectf x0 y0 x1 y1 v => exact draw_form _ s
  | circ x0 y0 r v => exact draw_form _ s
  | circf x0 y0 r v => exact draw_form _ s
  | icon x y w h v p => exact draw_form _ s
  | fill v => exact fill_form _ s
  | clear => exact fill_form _ s
  | setfont p => exact ⟨_, rfl, .font p⟩
  | reset v => exact raise_form (by decide) s
  | glyph x y ch v => exact text_form fun f => draw_form _ s
  | wstr x y v l p => exact text_form fun f => draw_form _ s
  | strb l p =>
    refine text_form fun f => ⟨_, rfl, .extent _ _ ?_ ?_⟩
    · rw [BitVec.toNat_ofNat]
      exact (Nat.mod_le _ _).trans (min_le_right _ _)
    · rw [BitVec.toNat_setWidth]
      have := f.maxHeight.isLt
      omega
  | just w h m =>
    simp only [exec, execJust]
    split
    · exact ⟨_, rfl, .origin _ _⟩
    · exact ⟨_, rfl, .origin _ _⟩
    · exact ⟨_, rfl, .origin _ _⟩
    · exact raise_form (by decide) s
  | openDisplay v l p =>
    by_cases hv : v = 0
    · subst hv
      exact raise_form (by decide) s
    · by_cases hp : s.pstate = .closed
      · exact ⟨_, execOpen_closed hv hp l p, .opened v l p hv hp⟩
      · exact ⟨_, execOpen_open hv hp l p, .failed _ (by decide)⟩
  | sync =>
    by_cases hp : s.pstate = .ready
    · exact ⟨_, execSync_ready hp, .synced hp⟩
    · exact ⟨_, execSync_notReady hp, .failed _ (by decide)⟩
  | close v =>
    by_cases hp : s.pstate = .ready
    · by_cases hv : v = 0
      · subst hv
        exact ⟨_, execClose_keep hp, .closed hp⟩
      · exact ⟨_, execClose_clean hv hp, .cleaned hp⟩
    · exact ⟨_, execClose_notReady hp v, .failed _ (by decide)⟩

end Sys2Proof.Machine
end

