-- ==== Sys2Proof/Laws/PerInstr.lean ====
section
/-! SUPPORT. Facts about every operation as it is written, one lemma per constructor of Instr. -/

namespace Sys2Proof.Laws.EncodedOpcode

/-- The `OP` field of an operation's descriptor is its operation code (R82, R83). -/
def Statement (i : Instr) : Prop := fieldOp (encode i) = i.opcode

theorem setpx (x y : Coord) (v : Byte) : Statement (.setpx x y v) := fieldOp_packFields ..

theorem fill (v : Byte) : Statement (.fill v) := fieldOp_packFields ..

theorem clear : Statement (.clear) := fieldOp_packFields ..

theorem line (x0 y0 x1 y1 : Coord) (v : Byte) : Statement (.line x0 y0 x1 y1 v) := fieldOp_packFields ..

theorem rect (x0 y0 x1 y1 : Coord) (v : Byte) : Statement (.rect x0 y0 x1 y1 v) := fieldOp_packFields ..

theorem rectf (x0 y0 x1 y1 : Coord) (v : Byte) : Statement (.rectf x0 y0 x1 y1 v) := fieldOp_packFields ..

theorem circ (x y r : Coord) (v : Byte) : Statement (.circ x y r v) := fieldOp_packFields ..

theorem circf (x y r : Coord) (v : Byte) : Statement (.circf x y r v) := fieldOp_packFields ..

theorem icon (x y w h : Coord) (v : Byte) (p : Addr) : Statement (.icon x y w h v p) := fieldOp_packFields ..

theorem setfont (p : Addr) : Statement (.setfont p) := fieldOp_packFields ..

theorem glyph (x y : Coord) (ch v : Byte) : Statement (.glyph x y ch v) := fieldOp_packFields ..

theorem wstr (x y : Coord) (v : Byte) (l : Coord) (p : Addr) : Statement (.wstr x y v l p) := fieldOp_packFields ..

theorem strb (l : Coord) (p : Addr) : Statement (.strb l p) := fieldOp_packFields ..

theorem just (w h : Coord) (m : Byte) : Statement (.just w h m) := fieldOp_packFields ..

theorem openDisplay (ch : Byte) (l : Coord) (p : Addr) : Statement (.openDisplay ch l p) := fieldOp_packFields ..

theorem sync : Statement (.sync) := fieldOp_packFields ..

theorem close (v : Byte) : Statement (.close v) := fieldOp_packFields ..

theorem reset (v : Byte) : Statement (.reset v) := fieldOp_packFields ..

end Sys2Proof.Laws.EncodedOpcode
end

