-- ==== Sys2Proof/Laws/Step.lean ====
section
/-! SUPPORT. What a step can do, said once: its three cases, and what none of them changes. -/

namespace Sys2Proof.Machine

/-- With an operation in progress a step goes on with it and takes no descriptor (R81, R199). -/
theorem step_in_progress {s : State} {w : Framing} (h : s.inProgress = some w) :
    step s = .next (resumeFramer w s).retire := by
  simp [step, h]

/-- With no operation in progress a step takes the descriptor at the position (R30). -/
theorem step_takes {s : State} {w : Descriptor} (h : s.inProgress = none) (hw : s.program[s.position]? = some w) :
    step s = retireResult (execDescriptor w s) := by
  simp [step, State.fetch, h, hw]

/-- With nothing to do a step keeps the state (R229). -/
theorem step_waits {s : State} (h : s.inProgress = none) (hp : s.program.length ≤ s.position) : step s = .next s := by
  simp [step, State.fetch, h, hp]

/-- A descriptor executed answers a next state of one of the forms of an operation. -/
theorem execDescriptor_form (w : Descriptor) (s : State) : ∃ t, execDescriptor w s = .next t ∧ ExecForm s t := by
  unfold execDescriptor
  cases decode w with
  | ok i => exact exec_form i s
  | error r => exact raise_form (by decide) s

/-- Going on with an operation changes none of the state that framer actions leave alone. -/
theorem resumeFramer_frame (w : Framing) (s : State) : SameBesidesFraming s (resumeFramer w s) := by
  cases h : s.answers with
  | nil => rw [resumeFramer_waits h]; constructor <;> rfl
  | cons n more =>
    rw [resumeFramer_answered h]
    obtain ⟨h1, h2, h3, h4, h5, h6, h7, h8, h9, h10⟩ := runFramer_frame w.remaining (w.mismatch || n != w.awaited)
      (((s.withProgress none).withAnswers more).emit (.answer n))
    constructor <;> assumption

/-- Leaving a descriptor behind does not touch the program. -/
theorem retire_program (s : State) : s.retire.program = s.program := by
  unfold State.retire
  split <;> rfl

/-- Leaving a descriptor behind does not touch the operation in progress. -/
theorem retire_inProgress (s : State) : s.retire.inProgress = s.inProgress := by
  unfold State.retire
  split <;> rfl

/-- The state that no operation changes: the parameters, the assets, the host's list and its position. -/
theorem execForm_keeps_host {s t : State} (h : ExecForm s t) :
    t.cfg = s.cfg ∧ t.asset = s.asset ∧ t.program = s.program ∧ t.position = s.position := by
  cases h with
  | opened v l p hv hp =>
    have h := runFramer_frame [.send (.init p l), .blank, .send .cursor, .send .buffer, .ready] false
      (s.withSession .initializing v)
    exact ⟨h.cfg, h.asset, h.program, h.position⟩
  | synced hp =>
    have h := runFramer_frame [.send .cursor, .send .buffer] false s
    exact ⟨h.cfg, h.asset, h.program, h.position⟩
  | closed hp => exact ⟨rfl, rfl, rfl, rfl⟩
  | cleaned hp =>
    have h := runFramer_frame [.blank, .send .cursor, .send .buffer, .release] false s
    exact ⟨h.cfg, h.asset, h.program, h.position⟩
  | _ => exact ⟨rfl, rfl, rfl, rfl⟩

end Sys2Proof.Machine
end

