-- ==== Sys2Proof/Tests/Slice0.lean ====
section
/-! SUPPORT. Small tests. Expected values are those of spec/95_test_vectors.md (V<n>, S<n>, P<n>) or worked out by hand from
the rule named. After them, for every statement with hypotheses, a witness that meets them. -/

namespace Sys2Proof.Tests

-- One theorem after another: many small kernel evaluations at once ask for more threads than the memory limit allows.
set_option Elab.async false

open Sys2Proof Sys2Proof.Machine

/-! ### Configurations, assets and states of 95_test_vectors.md -/

/-- Cells for consecutive bytes. -/
def cellsAt (a : Nat) (l : List Byte) : List Host.Cell :=
  (l.zipIdx.map fun c => (a + c.2, c.1)).filter fun c => decide (c.2 ≠ 0)

/-- The font part of the asset memory of section 2. -/
def fontAssets : Memory :=
  cellsAt 0x100 [0x41, 0x42, 0x05, 0x00, 0x10, 0x01, 0x00, 0x00, 0x20, 0x01, 0x00, 0x00] ++
    cellsAt 0x110 [0x03, 0x03, 0x06, 0x00, 0xFD, 0x00, 0x00, 0x00] ++
    cellsAt 0x118 [0x02, 0x02, 0x08, 0x01, 0xFE, 0x00, 0x02, 0x00] ++ cellsAt 0x120 [0x5E, 0x80, 0xE0]

/-- The rest of the asset memory of section 2. -/
def otherAssets : Memory :=
  cellsAt 0x200 [0x41, 0x42] ++ cellsAt 0x208 [0x41, 0x0D, 0x42, 0x21] ++ cellsAt 0x220 [0x41, 0x42, 0x42, 0x41] ++
    cellsAt 0x300 [0x00, 0x00, 0x00, 0xB4] ++ cellsAt 0x310 [0x18, 0x24, 0x42, 0x81, 0x00, 0x00, 0x00, 0xFF] ++
    cellsAt 0x400 [0xAE, 0xA8, 0x3F, 0xAF]

/-- T16: 16 by 16. -/
def cfg16 : Config := ⟨15, 1, 0x00, 0x3F, [0x21, 0x00, 0x0F, 0x22, 0x00, 0x01], .byteOffset⟩

/-- T8: 8 by 8. -/
def cfg8 : Config := ⟨7, 0, 0x00, 0x3F, [0x21, 0x00, 0x07, 0x22, 0x00, 0x00], .byteOffset⟩

/-- A closed session on a blank framebuffer. -/
def blank (c : Config) : State :=
  { cfg := c
    fb := []
    asset := fontAssets ++ otherAssets
    pstate := .closed
    ch := 0
    fontPtr := 0
    boundX := 0
    boundY := 0
    boundW := 0
    boundH := 0
    last := .ok
    inProgress := none
    program := []
    position := 0
    answers := []
    events := []
    resets := 0 }

/-- T16, blank. -/
def t16 : State := blank cfg16
/-- T16 with every byte 0xFF. -/
def full16 : State := t16.withFrame (fillAll cfg16 true)
/-- T16 with the font bound. -/
def font16 : State := t16.withFont 0x100
/-- T8, closed, every byte 0xFF. -/
def t8 : State := (blank cfg8).withFrame (fillAll cfg8 true)
/-- T8 with an open session on channel 1. -/
def ready8 : State := (blank cfg8).withSession .ready 1

/-- The next state of a result, if there is one. -/
def nextOf : Result → Option State
  | .next s => some s
  | .fault _ => none
  | .refused _ => none

/-- What a run of bytes of the framebuffer holds after an operation. -/
def frameAfter (i : Instr) (s : State) (lo n : Nat) : Option (List Byte) :=
  (nextOf (exec i s)).map fun t => (List.range' lo n).map t.fb.read

/-- The points as numbers. -/
def natPoints (l : List Point) : List (Nat × Nat) := l.map fun p => (p.1.toNat, p.2.toNat)

/-! ### WellFormed: each check refuses an ill-formed term -/

theorem test_wellFormed_refuses_just_mode_3 : (Instr.just 16 16 3).wellFormed = false := by decide
theorem test_wellFormed_accepts_just_mode_2 : (Instr.just 16 16 2).wellFormed = true := by decide
theorem test_wellFormed_refuses_reset : (Instr.reset 0).wellFormed = false := by decide

/-! ### Decoding: one written descriptor per operation (V13) -/

theorem test_decode_setpx : decode 0x00000000000000000000000A00030101 = .ok (.setpx 3 10 1) := by rfl
theorem test_decode_fill : decode 0x0000000000000000000000000000FF02 = .ok (.fill 0xFF) := by rfl
theorem test_decode_clear : decode 0x00000000000000000000000000000003 = .ok .clear := by rfl
theorem test_decode_line : decode 0x00000000000000030003000000000110 = .ok (.line 0 0 3 3 1) := by rfl
theorem test_decode_rect : decode 0x00000000000000040006000100020111 = .ok (.rect 2 1 6 4 1) := by rfl
theorem test_decode_rectf : decode 0x00000000000000040006000100020112 = .ok (.rectf 2 1 6 4 1) := by rfl
theorem test_decode_circ : decode 0x00000000000000000002000500050113 = .ok (.circ 5 5 2 1) := by rfl
theorem test_decode_circf : decode 0x00000000000000000003000500050114 = .ok (.circf 5 5 3 1) := by rfl
theorem test_decode_icon : decode 0x00000310000000080005000400010115 = .ok (.icon 1 4 5 8 1 0x310) := by rfl
theorem test_decode_setfont : decode 0x00000100000000000000000000000020 = .ok (.setfont 0x100) := by rfl
theorem test_decode_glyph : decode 0x00000000000000000041000800040121 = .ok (.glyph 4 8 0x41 1) := by rfl
theorem test_decode_wstr : decode 0x00000200000200000000000800010122 = .ok (.wstr 1 8 1 2 0x200) := by rfl
theorem test_decode_strb : decode 0x00000200000200000000000000000023 = .ok (.strb 2 0x200) := by rfl
theorem test_decode_just : decode 0x00000000000000000000001000100124 = .ok (.just 16 16 1) := by rfl
theorem test_decode_open : decode 0x00000400000400000000000000000130 = .ok (.openDisplay 1 4 0x400) := by rfl
theorem test_decode_sync : decode 0x00000000000000000000000000000031 = .ok .sync := by rfl
theorem test_decode_close : decode 0x00000000000000000000000000000132 = .ok (.close 1) := by rfl
theorem test_decode_reset : decode 0x00000000000000000000000000000133 = .ok (.reset 1) := by rfl
theorem test_decode_rejects_ff : decode 0x000000000000000000000000000000FF = .error (.unassignedOpcode 0xFF) := by rfl
theorem test_decode_rejects_zero : decode 0 = .error (.unassignedOpcode 0) := by rfl
theorem test_decode_ignores_all_of_clear : decode 0xFFFFFFFFFFFFFFFFFFFFFFFFFFFFFF03 = .ok .clear := by rfl
theorem test_decode_ignores_high_char : decode 0x0000000000000000FF41000800040121 = .ok (.glyph 4 8 0x41 1) := by rfl

/-- The 16 port bytes of `OPEN 1, 4, 0x400` (V13). -/
theorem test_port_bytes_open : encodeBytes (.openDisplay 1 4 0x400) =
    [0x30, 0x01, 0, 0, 0, 0, 0, 0, 0, 0, 0x04, 0, 0, 0x04, 0, 0] := by decide
theorem test_port_refuses_15_bytes : decodeBytes (List.replicate 15 0) = .error (.notADescriptor 15) := by rfl

/-- The host asks the decoder with the low bits of a descriptor only. -/
theorem test_tableWord_sync : decodeTableWord 8 0x31 = some .sync := by decide
theorem test_tableWord_icon :
    decodeTableWord 128 0x00000310000000080005000400010115 = some (.icon 1 4 5 8 1 0x310) := by decide

/-- The first step after reset runs the placed descriptor. -/
theorem test_first_step_setfont : nextOf (step (State.reset.withFetchWord 128 0x00000100000000000000000000000020)) =
    some { State.reset.withFetchWord 128 0x00000100000000000000000000000020 with fontPtr := 0x100, position := 1 } := by rfl

/-! ### Address unit (S1, S2, S7, V1) -/

theorem test_setpx_sets_one_bit : frameAfter (.setpx 3 10 1) t16 18 3 = some [0x00, 0x04, 0x00] := by decide +kernel
theorem test_setpx_clamps_and_clears : frameAfter (.setpx 0xFFFF 0xFFFF 0) full16 30 2 = some [0xFF, 0x7F] := by
  decide +kernel
theorem test_fill_80_is_on : frameAfter (.fill 0x80) (blank cfg8) 0 8 = some (List.replicate 8 0xFF) := by decide +kernel
theorem test_clear : frameAfter .clear t8 0 8 = some (List.replicate 8 0x00) := by decide +kernel
theorem test_byteIndex_128_64 : byteIndex ⟨127, 7, 0, 0, [], .byteOffset⟩ 5 20 = 261 := by decide

/-! ### Raster unit (V2 to V8) -/

theorem test_line_order : natPoints (linePoints cfg16 (7, 2) (0, 0)) =
    [(7, 2), (6, 2), (5, 1), (4, 1), (3, 1), (2, 1), (1, 0), (0, 0)] := by decide +kernel
theorem test_line_clamps_first : natPoints (linePoints cfg16 (10, 3) (40, 3)) =
    [(10, 3), (11, 3), (12, 3), (13, 3), (14, 3), (15, 3)] := by decide +kernel
theorem test_rect : frameAfter (.rect 6 4 2 1 1) t16 1 7 = some [0x00, 0x1E, 0x12, 0x12, 0x12, 0x1E, 0x00] := by
  decide +kernel
theorem test_rect_calls : (rectPoints cfg16 (2, 1) (6, 4)).length = 18 := by decide +kernel
theorem test_rectf_clears : frameAfter (.rectf 2 1 6 4 0) full16 1 7 = some [0xFF, 0xE1, 0xE1, 0xE1, 0xE1, 0xE1, 0xFF] := by
  decide +kernel
theorem test_rectf_clamps : frameAfter (.rectf 12 12 100 100 1) t16 27 5 = some [0x00, 0xF0, 0xF0, 0xF0, 0xF0] := by
  decide +kernel
theorem test_circle_steps : circleSteps 7 = [(6, 0), (6, 1), (6, 2), (6, 3), (5, 4)] := by decide +kernel
theorem test_circ_order : natPoints (circPoints 5 5 2) =
    [(6, 5), (5, 6), (5, 6), (4, 5), (4, 5), (5, 4), (5, 4), (6, 5),
      (6, 6), (6, 6), (4, 6), (4, 6), (4, 4), (4, 4), (6, 4), (6, 4)] := by decide +kernel
theorem test_circ_wraps : frameAfter (.circ 1 1 3 1) t16 0 32 = some
    [0x08, 0x08, 0x08, 0x0F, 0, 0, 0, 0, 0, 0, 0, 0, 0, 0, 0, 0x0F,
      0x80, 0x80, 0x80, 0x80, 0, 0, 0, 0, 0, 0, 0, 0, 0, 0, 0, 0x80] := by decide +kernel
theorem test_circf : frameAfter (.circf 5 5 4 1) t16 1 9 =
    some [0x00, 0xF8, 0xFC, 0xFC, 0xFC, 0xFC, 0xFC, 0xF8, 0x00] := by decide +kernel
theorem test_circf_wraps : frameAfter (.circf 1 1 3 1) t16 0 17 = some
    [0x08, 0x08, 0x08, 0x0F, 0x0F, 0x0F, 0x0F, 0x0F, 0x0F, 0x0F, 0x0F, 0x0F, 0x0F, 0x0F, 0x0F, 0x0F, 0x80] := by
  decide +kernel
theorem test_icon_second_word : frameAfter (.icon 1 4 5 8 1 0x310) t16 16 6 =
    some [0x00, 0x08, 0x04, 0x02, 0x01, 0x0F] := by decide +kernel
theorem test_icon_clamps : frameAfter (.icon 14 0 3 2 1 0x300) t16 13 3 = some [0x00, 0x01, 0x02] := by decide +kernel

/-! ### Glyph unit (V9 to V11, S6) -/

theorem test_setfont : (nextOf (exec (.setfont 0x100) t16)).map State.statusWord = some 0x40 := by decide +kernel
theorem test_glyph_order :
    natPoints (charPoints cfg16 fontAssets (loadFont fontAssets 0x100) 0x41 4 1) =
      [(5, 65534), (4, 65535), (5, 65535), (6, 65535), (4, 0), (6, 0)] := by decide +kernel
theorem test_glyph_bit_offset : natPoints (charPoints { cfg16 with offsetUnit := .bitOffset } fontAssets
    (loadFont fontAssets 0x100) 0x42 4 8) = [(6, 6), (5, 7), (6, 7)] := by decide +kernel
theorem test_wstr : frameAfter (.wstr 1 8 1 4 0x208) font16 0 10 =
    some [0x00, 0xC0, 0x60, 0xC0, 0, 0, 0, 0, 0xC0, 0x40] := by decide +kernel
theorem test_strb_clamps : (nextOf (exec (.strb 4 0x220) font16)).map (fun t => (t.boundW, t.boundH)) = some (16, 5) := by
  decide +kernel
theorem test_strb_skips_return :
    (nextOf (exec (.strb 4 0x208) font16)).map (fun t => (t.boundW, t.boundH)) = some (14, 5) := by decide +kernel
theorem test_just_center_rounds_to_zero :
    (nextOf (exec (.just 13 64 1) (t16.withExtent 14 8))).map (fun t => (t.boundX, t.boundY)) = some (36, 0) := by
  decide +kernel
theorem test_just_right_wraps :
    (nextOf (exec (.just 10 4 2) (t16.withExtent 14 8))).map (fun t => (t.boundX, t.boundY)) = some (0xFFFC, 0xFFFC) := by
  decide +kernel

/-! ### Framer unit (V12, S8) -/

theorem test_open_events :
    (nextOf (exec (.openDisplay 1 4 0x400) (t8.withAnswers [5, 7, 9]))).map (fun t => (t.events, t.statusWord, t.fb)) =
      some ([.write 1 [0x00, 0xAE, 0xA8, 0x3F, 0xAF], .answer 5,
        .write 1 [0x00, 0x21, 0x00, 0x07, 0x22, 0x00, 0x00], .answer 7,
        .write 1 [0x40, 0, 0, 0, 0, 0, 0, 0, 0], .answer 9], 0x20, []) := by decide +kernel
theorem test_open_mismatch :
    (nextOf (exec (.openDisplay 1 4 0x400) (t8.withAnswers [5, 3, 9]))).map State.statusWord = some 0x23 := by
  decide +kernel
theorem test_sync_mismatch : (nextOf (exec .sync (ready8.withAnswers [7, 3]))).map
    (fun t => (t.events.length, t.statusWord)) = some (4, 0x23) := by decide +kernel
theorem test_sync_closed : (nextOf (exec .sync t8)).map (fun t => (t.events, t.last)) =
    some ([], .channelUnavailable) := by decide +kernel
theorem test_close_keeps_frame : (nextOf (exec (.close 0) ((ready8.withFrame [(2, 0x08)])))).map
    (fun t => (t.fb, t.events, t.statusWord, t.ch)) = some ([(2, 0x08)], [.release 1], 0x00, 0) := by decide +kernel
theorem test_close_clean : (nextOf (exec (.close 1) ((ready8.withFrame [(2, 0x08)]).withAnswers [7, 9]))).map
    (fun t => (t.fb, t.events.length, t.events.getLast?, t.pstate)) = some ([], 5, some (.release 1), .closed) := by
  decide +kernel
theorem test_reset : (nextOf (exec (.reset 1) t16)).map State.statusWord = some 0x04 := by decide +kernel

/-! ### Witnesses: the statements on encoding and on the step -/

/-- A state whose host has one descriptor to issue. -/
def issuing (w : Descriptor) (s : State) : State := { s with program := [w], position := 0 }

theorem witness_UnusedFieldsAreIgnored :
    (0xDEADBEEF12345678FFFF000A00030101#128 &&& usedBits (fieldOp 0xDEADBEEF12345678FFFF000A00030101#128) =
      0x00000000000000000000000A00030101#128 &&& usedBits (fieldOp 0xDEADBEEF12345678FFFF000A00030101#128)) ∧
    decode 0xDEADBEEF12345678FFFF000A00030101 = .ok (.setpx 3 10 1) := by
  exact ⟨by decide, rfl⟩

theorem witness_UnassignedOpcodesAreIllegalNoOps :
    (issuing 0 t16).inProgress = none ∧ (issuing 0 t16).program[(issuing 0 t16).position]? = some 0 ∧
    ∀ i, decode 0 ≠ .ok i :=
  ⟨rfl, rfl, fun i h => by rw [test_decode_rejects_zero] at h; cases h⟩

theorem witness_StepRunsTheDecodedOperation :
    (issuing 0x31 ready8).inProgress = none ∧ (issuing 0x31 ready8).program[(issuing 0x31 ready8).position]? = some 0x31 ∧
    decode 0x31 = .ok .sync := ⟨rfl, rfl, rfl⟩

theorem witness_ResetIsAnIllegalNoOp :
    fieldOp 0x133 = 0x33 ∧ (issuing 0x133 ready8).inProgress = none ∧
    (issuing 0x133 ready8).program[(issuing 0x133 ready8).position]? = some 0x133 := by decide

theorem witness_PlacedWordRunsNext : decodeTableWord 8 0x33 = some (.reset 0) := by decide

/-- A descriptor to take: SYNC on a silent channel stays, RESET is left behind. -/
theorem witness_EveryDescriptorAdvancesByOne :
    (issuing 0x31 ready8).position < (issuing 0x31 ready8).program.length ∧
    (nextOf (step (issuing 0x31 ready8))).map (fun t => (t.inProgress.isSome, t.position)) = some (true, 0) ∧
    (nextOf (step (issuing 0x33 ready8))).map (fun t => (t.inProgress.isSome, t.position)) = some (false, 1) := by
  decide +kernel

theorem witness_WaitingKeepsAllState : ready8.inProgress = none ∧ ready8.program.length ≤ ready8.position := by decide

/-! ### Witnesses: the statements on drawing -/

/-- The decode clauses: a descriptor with each drawing `OP`. -/
theorem witness_drawing_opcodes :
    fieldOp 0x01 = 0x01 ∧ fieldOp 0x02 = 0x02 ∧ fieldOp 0x03 = 0x03 ∧ fieldOp 0x10 = 0x10 ∧ fieldOp 0x11 = 0x11 ∧
    fieldOp 0x12 = 0x12 ∧ fieldOp 0x13 = 0x13 ∧ fieldOp 0x14 = 0x14 ∧ fieldOp 0x15 = 0x15 := by decide

/-- The decode clauses: a descriptor with each text and framer `OP`. -/
theorem witness_text_and_framer_opcodes :
    fieldOp 0x20 = 0x20 ∧ fieldOp 0x21 = 0x21 ∧ fieldOp 0x22 = 0x22 ∧ fieldOp 0x23 = 0x23 ∧ fieldOp 0x24 = 0x24 ∧
    fieldOp 0x30 = 0x30 ∧ fieldOp 0x31 = 0x31 ∧ fieldOp 0x32 = 0x32 ∧ fieldOp 0x33 = 0x33 := by decide

/-- A framebuffer in canonical form that is not blank: what SETPX, LINE, RECT, RECTF, CIRC, CIRCF and ICON ask. -/
theorem witness_drawing_form : full16.fb.wf ∧ full16.fb ≠ [] := by decide +kernel

theorem witness_SetpxWritesOneBitOfOneByte :
    full16.fb.wf ∧ pixelByte full16.cfg 15 15 = 31 ∧ (0 : Nat) ≠ pixelByte full16.cfg 15 15 ∧ (7 : Nat) < 8 := by
  decide +kernel

/-- Both ends of the range of `k`. -/
theorem witness_ClampGoesToTheLastValidIndex :
    (1 ≤ (1 : Nat) ∧ (1 : Nat) ≤ 32768 ∧ (clampX cfg16 (u16 (-(1 : Nat)))).toNat = 15) ∧
    (1 ≤ (32768 : Nat) ∧ (32768 : Nat) ≤ 32768 ∧ (clampX cfg16 (u16 (-(32768 : Nat)))).toNat = 15) := by decide +kernel

theorem witness_PixelAddressIsABijection :
    (15 < cfg16.width ∧ 15 < cfg16.height ∧ byteIndex cfg16 15 15 = 31 ∧ 15 % 8 = 7) ∧
    (31 < cfg16.frameBytes ∧ 7 < 8 ∧ 31 % cfg16.width = 15 ∧ 8 * (31 / cfg16.width) + 7 = 15) := by decide

/-- A point of the framebuffer's last byte, and a byte past its end. -/
theorem witness_FillSetsEveryByte : 31 < t16.cfg.frameBytes ∧ ¬ 32 < t16.cfg.frameBytes := by decide

theorem witness_CircleStepperFollowsTheCircle :
    circleSteps 7 ≠ [] ∧ (circleSteps 7)[4]? = some (5, 4) ∧ ((6, 0) : Int × Int) ∈ circleSteps 7 := by decide +kernel

theorem witness_CircleOutlineIsRotationInvariant :
    t16.fb = [] ∧ (1 : Byte) ≠ 0 ∧ (3 : Coord).toNat ≤ (2 : Coord).toNat + 1 ∧
    (13 : Coord).toNat + (3 : Coord).toNat ≤ t16.cfg.width ∧ (3 : Coord).toNat ≤ (13 : Coord).toNat + 1 ∧
    (13 : Coord).toNat + (3 : Coord).toNat ≤ t16.cfg.height ∧ (∃ t, exec (.circ 13 13 3 1) t16 = .next t) ∧
    |(-2 : Int)| < ((3 : Coord).toNat : Int) :=
  ⟨rfl, by decide, by decide, by decide, by decide, by decide, ⟨_, rfl⟩, by decide⟩

theorem witness_DiscContainsOutline :
    t16.fb.wf ∧ (1 : Byte) ≠ 0 ∧ (∃ t, exec (.circ 5 5 3 1) t16 = .next t ∧ pixel cfg16 t.fb 3 3 = true) ∧
    (∃ u, exec (.circf 5 5 3 1) t16 = .next u) ∧ 3 < t16.cfg.width ∧ 3 < t16.cfg.height :=
  ⟨by decide, by decide, ⟨_, rfl, by decide +kernel⟩, ⟨_, rfl⟩, by decide, by decide⟩

/-- Both clauses of the ICON statement: three cells land on pixel (15, 0), the last of them is cell 4 (column 2, row 0);
no cell lands on pixel (13, 0). -/
theorem witness_IconCopiesItsCellsColumnMajor :
    t16.fb.wf ∧ 15 < t16.cfg.width ∧ 0 < t16.cfg.height ∧ 2 < (3 : Coord).toNat ∧ 0 < (2 : Coord).toNat ∧
    15 = landsAt t16.cfg.width ((14 : Coord).toNat + (2 : Nat)) ∧ 0 = landsAt t16.cfg.height ((0 : Coord).toNat + (0 : Nat)) ∧
    (∀ col, col < 3 → ∀ row, row < 2 → 15 = landsAt t16.cfg.width ((14 : Coord).toNat + (col : Nat)) →
      0 = landsAt t16.cfg.height ((0 : Coord).toNat + (row : Nat)) → col * 2 + row ≤ 2 * 2 + 0) ∧
    (∀ col, col < 3 → ∀ row, row < 2 → ¬ (13 = landsAt t16.cfg.width ((14 : Coord).toNat + (col : Nat)) ∧
      0 = landsAt t16.cfg.height ((0 : Coord).toNat + (row : Nat)))) := by decide +kernel

/-- A byte no call of SetPixel stores to, and one that a call stores to. -/
theorem witness_DrawingStoresOnlyToItsPixelBytes :
    drawsByPixel (.rect 2 1 6 4 1) = true ∧ t16.fb.wf ∧
    (∀ p ∈ callsOf t16 (.rect 2 1 6 4 1), 7 ≠ pixelByte t16.cfg p.at_.1 p.at_.2) ∧
    (∃ p ∈ callsOf t16 (.rect 2 1 6 4 1), 6 = pixelByte t16.cfg p.at_.1 p.at_.2) := by decide +kernel

/-! ### Witnesses: the statements on text -/

/-- The font's first and last character, and the characters next to them. -/
theorem witness_GlyphLookupReadsTheTable :
    (loadFont fontAssets 0x100).firstChar.toNat ≤ (0x41 : Byte).toNat ∧
    (0x42 : Byte).toNat ≤ (loadFont fontAssets 0x100).lastChar.toNat ∧
    (0x40 : Byte).toNat < (loadFont fontAssets 0x100).firstChar.toNat ∧
    (loadFont fontAssets 0x100).lastChar.toNat < (0x43 : Byte).toNat := by decide +kernel

theorem witness_SetfontStoresTheReference : ∃ t, exec (.setfont 0x100) t16 = .next t := ⟨_, rfl⟩

theorem witness_TextNeedsAFont : t16.fontPtr = 0 := rfl

/-- The clauses of `GlyphDrawsItsSetBits`, `WstrDrawsEachGlyphAtItsPen` and `StrbMeasuresTheString`: no font, and a bound
font with a character it has (the pixels of which are drawn at the string's first pen) and one it does not have. -/
theorem witness_text_with_a_font :
    t16.fontPtr = 0 ∧
    font16.fontPtr ≠ 0 ∧ font16.fb.wf ∧ (lookup font16.asset (loadFont font16.asset font16.fontPtr) 0x41).isSome = true ∧
    lookup font16.asset (loadFont font16.asset font16.fontPtr) 0x43 = none := by decide +kernel

/-- The four clauses of the JUST statement; 3 and 255 are the ends of the last one. -/
theorem witness_JustComputesTheOffsets :
    (0 : Byte) = 0 ∧ (1 : Byte) = 1 ∧ (2 : Byte) = 2 ∧ 2 < (3 : Byte).toNat ∧ 2 < (255 : Byte).toNat := by decide

/-! ### Witnesses: the statements on the framer -/

/-- The clauses of OPEN: no channel, an open session, and a closed one with three answers. -/
theorem witness_OpenStartsTheSession :
    ((1 : Byte) ≠ 0 ∧ ready8.pstate ≠ .closed) ∧
    ((255 : Byte) ≠ 0 ∧ (t8.withAnswers [5, 7, 9]).pstate = .closed ∧ (t8.withAnswers [5, 7, 9]).answers = [5, 7, 9]) := by
  decide

/-- The clauses of SYNC. -/
theorem witness_SyncSendsTheBuffer :
    t8.pstate ≠ .ready ∧ (ready8.withAnswers [7, 3]).pstate = .ready ∧ (ready8.withAnswers [7, 3]).answers = [7, 3] := by
  decide

/-- The clauses of CLOSE. -/
theorem witness_CloseReleasesTheChannel :
    t8.pstate ≠ .ready ∧ ready8.pstate = .ready ∧ (1 : Byte) ≠ 0 ∧ (ready8.withAnswers [7, 9]).pstate = .ready ∧
    (ready8.withAnswers [7, 9]).answers = [7, 9] := by decide

/-- The clauses of `FramerWaitsForTheFirstAnswer`. -/
theorem witness_FramerWaitsForTheFirstAnswer :
    (t8.answers = [] ∧ (1 : Byte) ≠ 0 ∧ t8.pstate = .closed) ∧ (ready8.answers = [] ∧ ready8.pstate = .ready) := by decide

/-- SYNC waiting for the answer to its first frame, as the one descriptor of the host. -/
def waiting8 : State :=
  { ready8 with
    program := [0x31]
    inProgress := some ⟨7, [.send .buffer], false⟩
    events := [.write 1 [0x00, 0x21, 0x00, 0x07, 0x22, 0x00, 0x00]] }

theorem witness_SilentChannelHangsThePac :
    waiting8.inProgress = some ⟨7, [.send .buffer], false⟩ ∧ waiting8.answers = [] := by decide

/-- A SYNC that is answered once, so that it waits, and one that is answered twice, so that it ends; and the same as steps. -/
theorem witness_LateAnswersChangeNothing :
    ready8.inProgress = none ∧ (issuing 0x31 ready8).inProgress = none ∧
    (nextOf (exec .sync (ready8.withAnswers [7]))).map (fun t => t.inProgress.isSome) = some true ∧
    (nextOf (exec .sync (ready8.withAnswers [7, 9]))).map (fun t => t.inProgress.isSome) = some false ∧
    (nextOf (step ((issuing 0x31 ready8).withAnswers [7]))).map (fun t => t.inProgress.isSome) = some true ∧
    (nextOf (step ((issuing 0x31 ready8).withAnswers [7, 9]))).map (fun t => t.inProgress.isSome) = some false := by
  decide +kernel

/-- SYNC waiting for its first answer, with that answer there. -/
theorem witness_AnsweredOperationGoesOn :
    (waiting8.withAnswers [7]).inProgress = some ⟨7, [.send .buffer], false⟩ ∧ (waiting8.withAnswers [7]).answers = [7] := by
  decide

/-- SYNC waiting for its first of two answers: two answers end it, and the position advances; with one it waits for the
other and the position stays. -/
theorem witness_EnoughAnswersEndTheOperation :
    (waiting8.withAnswers [7, 9]).inProgress = some ⟨7, [.send .buffer], false⟩ ∧
    (waiting8.withAnswers [7]).inProgress = some ⟨7, [.send .buffer], false⟩ ∧
    (([.send .buffer] : List FramerAction).filter sendsFrame).length + 1 = 2 ∧
    (nextOf (step (waiting8.withAnswers [7, 9]))).map (fun t => (t.inProgress.isSome, t.position)) = some (false, 1) ∧
    (nextOf (step (waiting8.withAnswers [7]))).map (fun t => (t.inProgress.isSome, t.position)) = some (true, 0) := by
  decide +kernel

/-- The cases of the lifecycle: OPEN that waits, CLOSE that ends, CLOSE on a closed session. -/
theorem witness_LifecycleTransitions :
    t8.inProgress = none ∧ ready8.inProgress = none ∧
    (nextOf (exec (.openDisplay 1 4 0x400) t8)).map (fun t => (t.inProgress.isSome, t.pstate)) =
      some (true, .initializing) ∧
    (nextOf (exec (.close 0) ready8)).map (fun t => (t.inProgress.isSome, t.pstate)) = some (false, .closed) ∧
    (nextOf (exec (.close 0) t8)).map (fun t => (t.inProgress.isSome, t.pstate)) = some (false, .closed) := by
  decide +kernel

/-! ### Witnesses: the statements on the whole machine -/

/-- One descriptor for each of the codes 1, 2, 4 and 5. -/
theorem witness_FailedOperationsAreNoOps :
    t16.inProgress = none ∧ ready8.inProgress = none ∧
    (nextOf (execDescriptor 0x31 t16)).map (fun t => (t.inProgress, t.last.code)) = some (none, 1) ∧
    (nextOf (execDescriptor 0x23 t16)).map (fun t => (t.inProgress, t.last.code)) = some (none, 2) ∧
    (nextOf (execDescriptor 0x00 t16)).map (fun t => (t.inProgress, t.last.code)) = some (none, 4) ∧
    (nextOf (execDescriptor 0x130 ready8)).map (fun t => (t.inProgress, t.last.code)) = some (none, 5) := by
  decide +kernel

theorem witness_DrawingNeverTouchesTheChannel : usesChannel (.fill 1) = false ∧ usesChannel (.reset 0) = false := by decide

/-- Operations that write a register of their own. -/
theorem witness_RegistersHaveTheirWriters :
    (∃ t, exec (.setfont 0x100) t16 = .next t) ∧ (∃ t, exec (.close 1) ready8 = .next t) ∧
    ∃ t, exec (.just 16 16 1) t16 = .next t := ⟨⟨_, rfl⟩, ⟨_, rfl⟩, ⟨_, rfl⟩⟩

theorem witness_LastIsNeverRead :
    t16.inProgress = none ∧ ∃ t, exec (.strb 2 0x200) t16 = .next t ∧ t.inProgress = none := ⟨rfl, _, rfl, rfl⟩

/-- Both clauses, after an operation that ended with IllegalOperation; mode 2 is the last well-formed one and mode 3 the first
ill-formed one. -/
theorem witness_OnlyIllFormedOperationsAreIllegal :
    ((Instr.just 16 16 2).wellFormed = true ∧ (t16.withLast .illegalOperation).inProgress = none ∧
      ∃ t, exec (.just 16 16 2) (t16.withLast .illegalOperation) = .next t ∧ t.inProgress = none) ∧
    (Instr.just 16 16 3).wellFormed = false ∧ ∃ t, exec (.just 16 16 3) t16 = .next t :=
  ⟨⟨rfl, rfl, _, rfl, rfl⟩, rfl, _, rfl⟩

/-- Both clauses, and both ends of the reserved numbers. -/
theorem witness_RegisterPortReadsTheRegisters :
    t16.inProgress = none ∧ waiting8.inProgress ≠ none ∧ 9 ≤ (9 : BitVec 4).toNat ∧ 9 ≤ (15 : BitVec 4).toNat ∧
    readRegister t16 15 = some 0 ∧ readRegister t16 0 = some 16 := by decide +kernel

/-- The smallest and the largest panel, selectors that differ, and both units. -/
theorem witness_ConfigurationsAreTheLegalOnes :
    (1 ≤ (1 : Nat) ∧ 1 ≤ 32768 ∧ 8 ≤ (8 : Nat) ∧ 8 % 8 = 0 ∧ ((8 : Nat) = 8 ∨ (8 : Nat) = 1)) ∧
    (1 ≤ (32768 : Nat) ∧ 8 ≤ (32768 : Nat) ∧ 32768 % 8 = 0 ∧ (0x00 : Byte) ≠ 0x40 ∧ ((1 : Nat) = 8 ∨ (1 : Nat) = 1)) := by
  decide

/-- Every panel has a first framebuffer byte. -/
theorem witness_ResetLeavesTheStatedValues : 0 < State.reset.cfg.frameBytes := by
  have h1 := config_width_bounds State.reset.cfg
  have h2 := config_height_bounds State.reset.cfg
  rw [config_frameBytes_eq]
  exact Nat.mul_pos (by omega) (by omega)

/-- The invariant in an idle state and inside a SYNC. -/
theorem witness_invariant_idle : Inv ready8 := by decide +kernel

theorem witness_invariant_waiting : Inv waiting8 := by decide +kernel

theorem witness_PlatformResetIsAReset : Inv waiting8 ∧ 7 < waiting8.cfg.frameBytes :=
  ⟨witness_invariant_waiting, by decide⟩

theorem witness_EveryStepKeepsTheInvariant :
    (Inv ready8 ∧ ClaimableProgram ready8) ∧ (Inv waiting8 ∧ ClaimableProgram waiting8) :=
  ⟨⟨witness_invariant_idle, by decide +kernel⟩, witness_invariant_waiting, by decide +kernel⟩

/-- The frame discipline inside a SYNC that is about to send its Data frame, with the answer there. -/
theorem witness_EveryDataFrameFollowsACursorReset :
    FrameDisciplineInv (waiting8.withAnswers [7, 9]) ∧ ClaimableProgram (waiting8.withAnswers [7, 9]) ∧ ∃ t, step (waiting8.withAnswers [7, 9]) = .next t := by
  refine ⟨⟨witness_invariant_waiting, ?_, ?_⟩, by decide +kernel, _, rfl⟩
  · intro before ch frame after h hsel
    rcases before with _ | ⟨e, before⟩
    · obtain ⟨h1, h2⟩ := List.cons.inj h
      cases h1
      exact absurd hsel (by decide)
    · have := congrArg List.length h
      simp [waiting8] at this
  · intro w _ _
    exact ⟨[], rfl⟩

end Sys2Proof.Tests
end

