-- ==== Sys2Proof/Proofs/Scope.lean ====
section
/-! SUPPORT. The statements on the scope of the model (00_scope.md): what a step runs, which operations leave the channel
alone, and which configurations there are. -/

namespace Sys2Proof.Machine

/-! ### The step that takes a descriptor (R8, R30) -/

/-- A descriptor that decodes is executed as the operation it decodes to. -/
theorem execDescriptor_of_decode {w : Descriptor} {i : Instr} (h : decode w = .ok i) (s : State) :
    execDescriptor w s = exec i s := by
  simp only [execDescriptor, h]

/-- Retiring moves the position past the descriptor exactly when its operation has ended. -/
theorem retire_eq (s : State) :
    s.retire = if s.inProgress = none then { s with position := s.position + 1 } else s := by
  split
  case isTrue h => exact retire_idle h
  case isFalse h =>
    obtain ⟨w, hw⟩ := Option.ne_none_iff_exists'.mp h
    exact retire_busy hw

/-- Settles O6: the step takes the descriptor, and what it answers is the retired state of the decoded operation. -/
theorem stepRunsTheDecodedOperation : Obligations.StepRunsTheDecodedOperation := by
  intro s w i hidle hfetch hdecode
  obtain ⟨t, ht, -⟩ := exec_form i s
  rw [step_takes hidle hfetch, execDescriptor_of_decode hdecode, ht, retireResult, retire_eq]

/-! ### Operations that leave the channel alone (R3, R140, R190) -/

/-- An operation that ends at once, touches neither the channel nor the session, and does the same whatever the session. -/
def OffChannel (k : State → Result) : Prop :=
  ∀ s, ∃ t, k s = .next t ∧ t.pstate = s.pstate ∧ t.ch = s.ch ∧ t.events = s.events ∧ t.answers = s.answers ∧
    t.inProgress = s.inProgress ∧ ∀ q h, k (s.withSession q h) = .next (t.withSession q h)

/-- What an update does without the channel: it commutes with every change of the session and leaves the events, the
answers and the operation in progress as they are. An update that writes other registers has all four by definition. -/
structure SessionBlind (u : State → State) : Prop where
  withSession : ∀ s q h, u (s.withSession q h) = (u s).withSession q h := by intros; rfl
  events : ∀ s, (u s).events = s.events := by intros; rfl
  answers : ∀ s, (u s).answers = s.answers := by intros; rfl
  inProgress : ∀ s, (u s).inProgress = s.inProgress := by intros; rfl

/-- An update that commutes with every change of the session commutes with putting in the session that is there, so it
writes no session of its own. -/
theorem SessionBlind.keeps_session {u : State → State} (hu : SessionBlind u) (s : State) :
    u s = (u s).withSession s.pstate s.ch :=
  hu.withSession s s.pstate s.ch

theorem SessionBlind.offChannel {u : State → State} (hu : SessionBlind u) : OffChannel fun s => .next (u s) := by
  intro s
  refine ⟨u s, rfl, ?_, ?_, hu.events s, hu.answers s, hu.inProgress s, fun q h => congrArg _ (hu.withSession s q h)⟩
  · rw [hu.keeps_session s, State.withSession_pstate]
  · rw [hu.keeps_session s, State.withSession_ch]

/-- A failure records its code and nothing else (R223). -/
theorem raise_offChannel (c : ResultCode) : OffChannel (raise c) :=
  SessionBlind.offChannel {}

/-- An operation that ends normally is off the channel when its update is. -/
theorem done_offChannel {u : State → State} (hu : SessionBlind u) : OffChannel fun s => done (u s) :=
  SessionBlind.offChannel
    ⟨fun s q h => congrArg (State.withLast · .ok) (hu.withSession s q h), hu.events, hu.answers, hu.inProgress⟩

/-- A drawing operation is off the channel when the calls of SetPixel it makes do not depend on the session. -/
theorem draw_offChannel {ps : State → List Plot} (h : ∀ s q h, ps (s.withSession q h) = ps s) :
    OffChannel fun s => draw (ps s) s := by
  refine done_offChannel { withSession := fun s q ch => ?_ }
  rw [h s q ch]
  rfl

/-- An operation that needs a font is off the channel when what it does with every font is: whether one is bound does not
depend on the session (R162). -/
theorem withBoundFont_offChannel {k : State → Font → Result} (hk : ∀ f, OffChannel fun s => k s f) :
    OffChannel fun s => withBoundFont s (k s) := by
  intro s
  by_cases hf : s.fontPtr = 0
  · have hf' (q h) : (s.withSession q h).fontPtr = 0 := hf
    simp only [withBoundFont_unbound hf, withBoundFont_unbound (hf' _ _)]
    exact raise_offChannel .invalidReference s
  · have hf' (q h) : (s.withSession q h).fontPtr ≠ 0 := hf
    simp only [withBoundFont_bound hf, withBoundFont_bound (hf' _ _)]
    exact hk (loadFont s.asset s.fontPtr) s

/-- GLYPH draws with the bound font (R166). -/
theorem execGlyph_offChannel (x y : Coord) (ch v : Byte) : OffChannel (execGlyph x y ch v) := by
  refine withBoundFont_offChannel fun f => ?_
  exact draw_offChannel fun _ _ _ => rfl

/-- WSTR draws with the bound font (R167). -/
theorem execWstr_offChannel (x y : Coord) (v : Byte) (l : Coord) (p : Addr) : OffChannel (execWstr x y v l p) := by
  refine withBoundFont_offChannel fun f => ?_
  exact draw_offChannel fun _ _ _ => rfl

/-- STRB measures with the bound font and writes the bound's extent (R168). -/
theorem execStrb_offChannel (l : Coord) (p : Addr) : OffChannel (execStrb l p) := by
  refine withBoundFont_offChannel fun f => ?_
  exact done_offChannel {}

/-- JUST writes the bound's origin from its extent, or fails on its mode (R169). -/
theorem execJust_offChannel (w h : Coord) (mode : Byte) : OffChannel (execJust w h mode) := by
  unfold execJust
  generalize mode.toNat = m
  match m with
  | 0 | 1 | 2 => exact done_offChannel {}
  | _ + 3 => exact raise_offChannel .illegalOperation

/-- Every operation but OPEN, SYNC and CLOSE is off the channel. -/
theorem exec_offChannel {i : Instr} (hi : usesChannel i = false) : OffChannel (exec i) := by
  cases i with
  | setpx x y v => exact draw_offChannel fun _ _ _ => rfl
  | line x0 y0 x1 y1 v => exact draw_offChannel fun _ _ _ => rfl
  | rect x0 y0 x1 y1 v => exact draw_offChannel fun _ _ _ => rfl
  | rectf x0 y0 x1 y1 v => exact draw_offChannel fun _ _ _ => rfl
  | circ x0 y0 r v => exact draw_offChannel fun _ _ _ => rfl
  | circf x0 y0 r v => exact draw_offChannel fun _ _ _ => rfl
  | icon x y w h v p => exact draw_offChannel fun _ _ _ => rfl
  | fill v => exact done_offChannel {}
  | clear => exact done_offChannel {}
  | setfont p => exact done_offChannel {}
  | glyph x y ch v => exact execGlyph_offChannel x y ch v
  | wstr x y v l p => exact execWstr_offChannel x y v l p
  | strb l p => exact execStrb_offChannel l p
  | just w h m => exact execJust_offChannel w h m
  | reset v => exact raise_offChannel .illegalOperation
  | openDisplay v l p => cases hi
  | sync => cases hi
  | close v => cases hi

/-- Settles O48, by the off-channel form of each operation. -/
theorem drawingNeverTouchesTheChannel : Obligations.DrawingNeverTouchesTheChannel :=
  fun _ s hi => exec_offChannel hi s

/-! ### The configurations (R9, R10) -/

/-- The distance between the selectors is 1 to 255, which is not 0 modulo 256 (R9). -/
theorem config_selData_ne_selCmd (c : Config) : c.selData ≠ c.selCmd := by
  have hgap := c.selGap.isLt
  unfold Config.selData
  bv_omega

/-- A selector that differs from another lies at one of the distances 1 to 255 above it. -/
theorem exists_selGap {x y : Byte} (h : x ≠ y) : ∃ g : Fin 255, x + BitVec.ofNat 8 (g.val + 1) = y := by
  have hpos : (y - x).toNat ≠ 0 := by bv_omega
  have hlt := (y - x).isLt
  refine ⟨⟨(y - x).toNat - 1, by omega⟩, ?_⟩
  rw [Nat.sub_add_cancel (by omega), BitVec.ofNat_toNat, BitVec.setWidth_eq]
  bv_omega

/-- A unit of `bitmapOffset` spans 8 stream bits or 1 (R9). -/
theorem offsetUnit_bits (u : OffsetUnit) : u.bits = 8 ∨ u.bits = 1 := by
  cases u with
  | byteOffset => exact .inl rfl
  | bitOffset => exact .inr rfl

/-- Both units are there. -/
theorem exists_offsetUnit {n : Nat} (h : n = 8 ∨ n = 1) : ∃ u : OffsetUnit, u.bits = n := by
  obtain rfl | rfl := h
  · exact ⟨.byteOffset, rfl⟩
  · exact ⟨.bitOffset, rfl⟩

/-- Every width R10 admits has its last column. -/
theorem exists_lastColumn {w : Nat} (h1 : 1 ≤ w) (h2 : w ≤ 32768) : ∃ k : Fin 32768, k.val + 1 = w :=
  ⟨⟨w - 1, by omega⟩, Nat.sub_add_cancel h1⟩

/-- Every height R10 admits has its last page. -/
theorem exists_lastPage {h : Nat} (h1 : 8 ≤ h) (h2 : h ≤ 32768) (h8 : h % 8 = 0) :
    ∃ k : Fin 4096, 8 * (k.val + 1) = h :=
  ⟨⟨h / 8 - 1, by omega⟩, by show 8 * (h / 8 - 1 + 1) = h; omega⟩

/-- Every legal choice of the parameters is a configuration. -/
theorem exists_config {w h unit : Nat} {x y : Byte} (payload : List Byte) (hw1 : 1 ≤ w) (hw2 : w ≤ 32768) (hh1 : 8 ≤ h)
    (hh2 : h ≤ 32768) (hh8 : h % 8 = 0) (hxy : x ≠ y) (hunit : unit = 8 ∨ unit = 1) :
    ∃ c : Config, c.width = w ∧ c.height = h ∧ c.selCmd = x ∧ c.selData = y ∧ c.cursorReset = payload ∧
      c.offsetUnit.bits = unit := by
  obtain ⟨col, hcol⟩ := exists_lastColumn hw1 hw2
  obtain ⟨page, hpage⟩ := exists_lastPage hh1 hh2 hh8
  obtain ⟨gap, hgap⟩ := exists_selGap hxy
  obtain ⟨u, hu⟩ := exists_offsetUnit hunit
  exact ⟨⟨col, page, x, gap, payload, u⟩, hcol, hpage, rfl, hgap, rfl, hu⟩

/-- Settles O53: the bounds of each parameter one way, the configuration with given parameters the other. -/
theorem configurationsAreTheLegalOnes : Obligations.ConfigurationsAreTheLegalOnes := by
  refine ⟨fun c => ?_, fun w h unit x y payload => exists_config payload⟩
  obtain ⟨hw1, hw2⟩ := config_width_bounds c
  obtain ⟨hh1, hh2, hh8⟩ := config_height_bounds c
  exact ⟨hw1, hw2, hh1, hh2, hh8, config_selData_ne_selCmd c, offsetUnit_bits c.offsetUnit, rfl⟩

end Sys2Proof.Machine
end

section
/-! SUPPORT. The statements on the state (10_state.md): what every step keeps, which operations write which register, what
the register-read port reads, and what reset leaves. -/

namespace Sys2Proof.Machine

/-! ### What one operation leaves (R30, R81) -/

/-- The state an operation leaves before its descriptor is retired: the operation in progress gone on with, or a descriptor
executed while none was. -/
inductive Operated (s : State) : State → Prop
  /-- The operation in progress. -/
  | resumed (w : Framing) (hbusy : s.inProgress = some w) : Operated s (resumeFramer w s)
  /-- A descriptor taken. -/
  | executed {r : State} (hidle : s.inProgress = none) (hform : ExecForm s r) : Operated s r

/-- With an operation in progress or a descriptor to take, the step is an operation, retired. -/
theorem step_operates {s : State} (h : s.inProgress ≠ none ∨ s.position < s.program.length) :
    ∃ r, step s = .next r.retire ∧ Operated s r := by
  cases hprog : s.inProgress with
  | some w => exact ⟨_, step_in_progress hprog, .resumed w hprog⟩
  | none =>
    have hpos : s.position < s.program.length := h.resolve_left (not_not_intro hprog)
    obtain ⟨r, hr, hform⟩ := execDescriptor_form s.program[s.position] s
    refine ⟨r, ?_, .executed hprog hform⟩
    rw [step_takes hprog (List.getElem?_eq_getElem hpos), hr, retireResult]

/-- An operation changes neither the parameters nor the assets nor the host's list nor the position. -/
theorem Operated.keeps_host {s r : State} (h : Operated s r) :
    r.cfg = s.cfg ∧ r.asset = s.asset ∧ r.program = s.program ∧ r.position = s.position := by
  cases h with
  | resumed w hbusy =>
    have hsame := resumeFramer_frame w s
    exact ⟨hsame.cfg, hsame.asset, hsame.program, hsame.position⟩
  | executed hidle hform => exact execForm_keeps_host hform

/-- Settles O8: the step is an operation, which leaves list and position alone, and retiring moves the position by one
exactly when the operation has ended. -/
theorem everyDescriptorAdvancesByOne : Obligations.EveryDescriptorAdvancesByOne := by
  intro s h
  obtain ⟨r, hstep, hop⟩ := step_operates h
  obtain ⟨-, -, hprogram, hposition⟩ := hop.keeps_host
  refine ⟨r.retire, hstep, (retire_program r).trans hprogram, ?_⟩
  cases hprog : r.inProgress with
  | none =>
    rw [retire_idle hprog]
    exact .inl ⟨hprog, congrArg (· + 1) hposition⟩
  | some w =>
    rw [retire_busy hprog, hprog]
    exact .inr ⟨Option.some_ne_none w, hposition⟩

/-! ### The memories and the bounds (R21, R64, R168) -/

/-- Framer actions keep the memories' form: they fill the framebuffer and write no asset. -/
theorem runFramer_keeps_memory (acts : List FramerAction) (m : Bool) {s : State} (h : MemoryInv s) :
    MemoryInv (runFramer acts m s) := by
  obtain ⟨hwf, hwithin, hasset⟩ := h
  have hsame := runFramer_frame acts m s
  obtain ⟨hwf', hwithin'⟩ := runFramer_keeps_frame_form acts m ⟨hwf, hwithin⟩
  rw [MemoryInv, hsame.cfg, hsame.asset]
  exact ⟨hwf', hwithin', hasset⟩

/-- Framer actions leave the bounds and the parameters alone. -/
theorem SameBesidesFraming.keeps_bounds {s t : State} (hsame : SameBesidesFraming s t) (h : BoundsInv s) :
    BoundsInv t := by
  rwa [BoundsInv, hsame.cfg, hsame.boundW, hsame.boundH]

theorem resumeFramer_keeps_memory (w : Framing) {s : State} (h : MemoryInv s) : MemoryInv (resumeFramer w s) := by
  cases ha : s.answers with
  | nil => rwa [resumeFramer_waits ha]
  | cons n more =>
    rw [resumeFramer_answered ha]
    exact runFramer_keeps_memory _ _ h

theorem execForm_keeps_memory {s t : State} (hform : ExecForm s t) (h : MemoryInv s) : MemoryInv t := by
  cases hform with
  | drawn m hm =>
    obtain ⟨hwf, hwithin, hasset⟩ := h
    obtain ⟨hwf', hwithin'⟩ := hm ⟨hwf, hwithin⟩
    exact ⟨hwf', hwithin', hasset⟩
  | failed c hc => exact h
  | font p => exact h
  | origin x y => exact h
  | extent w k hw hk => exact h
  | opened v l p hv hp => exact runFramer_keeps_memory _ _ h
  | synced hp => exact runFramer_keeps_memory _ _ h
  | closed hp => exact runFramer_keeps_memory _ _ h
  | cleaned hp => exact runFramer_keeps_memory _ _ h

/-- Only STRB writes the extent, and it clamps the width (R168). -/
theorem execForm_keeps_bounds {s t : State} (hform : ExecForm s t) (h : BoundsInv s) : BoundsInv t := by
  cases hform with
  | drawn m hm => exact h
  | failed c hc => exact h
  | font p => exact h
  | origin x y => exact h
  | extent w k hw hk => exact ⟨hw, hk⟩
  | opened v l p hv hp => exact (runFramer_frame _ _ _).keeps_bounds h
  | synced hp => exact (runFramer_frame _ _ _).keeps_bounds h
  | closed hp => exact (runFramer_frame _ _ _).keeps_bounds h
  | cleaned hp => exact (runFramer_frame _ _ _).keeps_bounds h

/-! ### The session (R22, R23, R190) -/

/-- The actions can run from a lifecycle state: wherever one of their frames waits, the rest is at a place that OPEN, SYNC
or CLOSE has, and they do not end in `Initializing`. -/
def RunsFrom : Lifecycle → List FramerAction → Prop
  | p, [] => p ≠ .initializing
  | p, .send _ :: rest => FramingInv p rest ∧ RunsFrom p rest
  | p, .blank :: rest => RunsFrom p rest
  | p, .ready :: rest => p ≠ .closed ∧ RunsFrom .ready rest
  | _, .release :: rest => RunsFrom .closed rest

/-- Actions that can run from the lifecycle state keep the session's invariant, whether they end or wait. -/
theorem runFramer_session {acts : List FramerAction} (m : Bool) {s : State} (hch : s.ch ≠ 0 ↔ s.pstate ≠ .closed)
    (hidle : s.inProgress = none) (hruns : RunsFrom s.pstate acts) : SessionInv (runFramer acts m s) := by
  induction acts generalizing m s with
  | nil => exact ⟨hch, fun _ => hruns, fun w hw => by simp [hidle] at hw⟩
  | cons a rest ih =>
    cases a with
    | blank => exact ih m (s := s.withFrame (fillAll s.cfg false)) hch hidle hruns
    | ready =>
      obtain ⟨hopen, hrest⟩ := hruns
      exact ih m (s := s.withSession .ready s.ch) (by simpa using hch.mpr hopen) hidle hrest
    | release => exact ih m (s := (s.emit (.release s.ch)).withSession .closed 0) (by simp) hidle hruns
    | send f =>
      obtain ⟨hplace, hrest⟩ := hruns
      cases ha : s.answers with
      | nil =>
        rw [runFramer_send_waits ha]
        refine ⟨hch, fun hnone => by simp at hnone, fun w hw => ?_⟩
        obtain rfl := Option.some.inj hw
        exact hplace
      | cons n more =>
        rw [runFramer_send_answered ha]
        exact ih _ (s := ((s.emit (.write s.ch (frameBytesOf s f))).withAnswers more).emit (.answer n)) hch hidle hrest

/-- What an operation in progress has left to do can run from where it waits. -/
theorem framingInv_runsFrom {p : Lifecycle} {remaining : List FramerAction} (h : FramingInv p remaining) :
    RunsFrom p remaining := by
  obtain ⟨rfl, rfl | rfl | rfl⟩ | ⟨rfl, rfl | rfl | rfl | rfl⟩ := h <;> simp [RunsFrom, FramingInv]

theorem resumeFramer_session {s : State} {w : Framing} (hbusy : s.inProgress = some w) (h : SessionInv s) :
    SessionInv (resumeFramer w s) := by
  cases ha : s.answers with
  | nil => rwa [resumeFramer_waits ha]
  | cons n more =>
    obtain ⟨hch, -, hplace⟩ := h
    rw [resumeFramer_answered ha]
    exact runFramer_session _ hch rfl (framingInv_runsFrom (hplace w hbusy))

theorem execForm_session {s t : State} (hform : ExecForm s t) (hidle : s.inProgress = none) (h : SessionInv s) :
    SessionInv t := by
  obtain ⟨hch, -, -⟩ := id h
  cases hform with
  | drawn m hm => exact h
  | failed c hc => exact h
  | font p => exact h
  | origin x y => exact h
  | extent w k hw hk => exact h
  | opened v l p hv hp => exact runFramer_session _ (by simpa using hv) hidle (by simp [RunsFrom, FramingInv])
  | synced hp => exact runFramer_session _ hch hidle (by simp [RunsFrom, FramingInv, hp])
  | closed hp => exact runFramer_session _ hch hidle (by simp [RunsFrom])
  | cleaned hp => exact runFramer_session _ hch hidle (by simp [RunsFrom, FramingInv, hp])

/-! ### The invariant -/

/-- An operation keeps the invariants of the memories, the session and the bounds. -/
theorem Operated.keeps_registers {s r : State} (hop : Operated s r) (hmem : MemoryInv s) (hsession : SessionInv s)
    (hbounds : BoundsInv s) : MemoryInv r ∧ SessionInv r ∧ BoundsInv r := by
  cases hop with
  | resumed w hbusy =>
    exact ⟨resumeFramer_keeps_memory w hmem, resumeFramer_session hbusy hsession,
      (resumeFramer_frame w s).keeps_bounds hbounds⟩
  | executed hidle hform =>
    exact ⟨execForm_keeps_memory hform hmem, execForm_session hform hidle hsession, execForm_keeps_bounds hform hbounds⟩

/-- Retiring inside the host's list gives the position's invariant, whether the operation has ended or waits. -/
theorem retire_inv {r : State} (hpos : r.position < r.program.length) (hmem : MemoryInv r) (hsession : SessionInv r)
    (hbounds : BoundsInv r) : Inv r.retire := by
  cases hprog : r.inProgress with
  | none =>
    rw [retire_idle hprog]
    exact ⟨hmem, hsession, hbounds, hpos, fun hbusy => absurd hprog hbusy⟩
  | some w =>
    rw [retire_busy hprog]
    exact ⟨hmem, hsession, hbounds, hpos.le, fun _ => hpos⟩

/-- Settles O56: a step with nothing to do keeps the state, and any other is an operation inside the host's list, retired. -/
theorem everyStepKeepsTheInvariant : Obligations.EveryStepKeepsTheInvariant := by
  intro s hinv hclaim
  obtain ⟨hmem, hsession, hbounds, -, hbusyPos⟩ := id hinv
  by_cases hwork : s.inProgress ≠ none ∨ s.position < s.program.length
  · obtain ⟨r, hstep, hop⟩ := step_operates hwork
    obtain ⟨-, -, hprogram, hposition⟩ := hop.keeps_host
    obtain ⟨hmem', hsession', hbounds'⟩ := hop.keeps_registers hmem hsession hbounds
    have hpos : r.position < r.program.length := by
      rw [hprogram, hposition]
      exact hwork.elim hbusyPos id
    refine ⟨r.retire, hstep, retire_inv hpos hmem' hsession' hbounds', ?_⟩
    rwa [ClaimableProgram, retire_program, hprogram]
  · obtain ⟨hidle, hend⟩ := not_or.mp hwork
    exact ⟨s, step_waits (not_not.mp hidle) (not_lt.mp hend), hinv, hclaim⟩

/-! ### Which operation writes what (R20) -/

/-- What rule R20 lets an operation change: no operation the parameters, the assets or the host's side, and each register
its own writers only. A field left out says that the register is as it was, by definition. -/
structure RespectsWriters (i : Instr) (s t : State) : Prop where
  cfg : t.cfg = s.cfg := by rfl
  asset : t.asset = s.asset := by rfl
  program : t.program = s.program := by rfl
  position : t.position = s.position := by rfl
  resets : t.resets = s.resets := by rfl
  font : t.fontPtr = s.fontPtr ∨ ∃ p, i = .setfont p := by exact .inl rfl
  origin : (t.boundX = s.boundX ∧ t.boundY = s.boundY) ∨ ∃ w h m, i = .just w h m := by exact .inl ⟨rfl, rfl⟩
  extent : (t.boundW = s.boundW ∧ t.boundH = s.boundH) ∨ ∃ l p, i = .strb l p := by exact .inl ⟨rfl, rfl⟩
  session : (t.pstate = s.pstate ∧ t.ch = s.ch) ∨ (∃ v l p, i = .openDisplay v l p) ∨ ∃ v, i = .close v := by
    exact .inl ⟨rfl, rfl⟩
  frame : t.fb = s.fb ∨ drawsByPixel i = true ∨ (∃ v, i = .fill v) ∨ i = .clear ∨ (∃ v l p, i = .openDisplay v l p) ∨
    ∃ v, v ≠ 0 ∧ i = .close v := by exact .inl rfl

/-- A failure writes no register but `STATUS.LAST` (R223). -/
theorem raise_respectsWriters {c : ResultCode} {i : Instr} {s t : State} (h : raise c s = .next t) :
    RespectsWriters i s t := by
  obtain rfl := raise_eq_next h
  exact {}

/-- A drawing operation writes the framebuffer. -/
theorem draw_respectsWriters {ps : List Plot} {i : Instr} {s t : State} (hi : drawsByPixel i = true)
    (h : draw ps s = .next t) : RespectsWriters i s t := by
  obtain rfl := draw_eq_next h
  exact { frame := .inr (.inl hi) }

/-- An operation that needs a font writes what it writes with a font, or fails (R162). -/
theorem withBoundFont_respectsWriters {k : Font → Result} {i : Instr} {s t : State}
    (hk : ∀ f, k f = .next t → RespectsWriters i s t) (h : withBoundFont s k = .next t) : RespectsWriters i s t := by
  by_cases hf : s.fontPtr = 0
  · rw [withBoundFont_unbound hf] at h
    exact raise_respectsWriters h
  · rw [withBoundFont_bound hf] at h
    exact hk _ h

/-- STRB writes the bound's extent (R168). -/
theorem execStrb_respectsWriters {l : Coord} {p : Addr} {s t : State} (h : execStrb l p s = .next t) :
    RespectsWriters (.strb l p) s t := by
  refine withBoundFont_respectsWriters (fun f hk => ?_) h
  obtain rfl := done_eq_next hk
  exact { extent := .inr ⟨l, p, rfl⟩ }

/-- JUST writes the bound's origin, or fails on its mode (R169). -/
theorem execJust_respectsWriters {w k : Coord} {m : Byte} {s t : State} (h : execJust w k m s = .next t) :
    RespectsWriters (.just w k m) s t := by
  have hdone {x y : Coord} (hd : done (s.withOrigin x y) = .next t) : RespectsWriters (.just w k m) s t := by
    obtain rfl := done_eq_next hd
    exact { origin := .inr ⟨w, k, m, rfl⟩ }
  unfold execJust at h
  generalize m.toNat = n at h
  match n with
  | 0 | 1 | 2 => exact hdone h
  | _ + 3 => exact raise_respectsWriters h

/-- An operation that changes what framer actions change respects its writers when it may write the session and the
framebuffer where it does. -/
theorem SameBesidesFraming.respectsWriters {i : Instr} {s t : State} (hsame : SameBesidesFraming s t)
    (hsession : (t.pstate = s.pstate ∧ t.ch = s.ch) ∨ (∃ v l p, i = .openDisplay v l p) ∨ ∃ v, i = .close v)
    (hframe : t.fb = s.fb ∨ (∃ v l p, i = .openDisplay v l p) ∨ ∃ v, v ≠ 0 ∧ i = .close v) : RespectsWriters i s t where
  cfg := hsame.cfg
  asset := hsame.asset
  program := hsame.program
  position := hsame.position
  resets := hsame.resets
  font := .inl hsame.fontPtr
  origin := .inl ⟨hsame.boundX, hsame.boundY⟩
  extent := .inl ⟨hsame.boundW, hsame.boundH⟩
  session := hsession
  frame := hframe.imp_right fun hwriter => .inr (.inr (.inr hwriter))

/-- Sending frames writes neither the session nor the framebuffer. -/
theorem runFramer_sends (frames : List FrameKind) (m : Bool) (s : State) :
    (runFramer (frames.map .send) m s).pstate = s.pstate ∧ (runFramer (frames.map .send) m s).ch = s.ch ∧
    (runFramer (frames.map .send) m s).fb = s.fb := by
  induction frames generalizing m s with
  | nil => exact ⟨rfl, rfl, rfl⟩
  | cons f rest ih =>
    rw [List.map_cons]
    cases ha : s.answers with
    | nil => rw [runFramer_send_waits ha]; exact ⟨rfl, rfl, rfl⟩
    | cons n more => rw [runFramer_send_answered ha]; exact ih _ _

/-- The session is not among the state that framer actions leave alone, so it makes no difference there. -/
theorem SameBesidesFraming.of_withSession {s t : State} {p : Lifecycle} {ch : Byte}
    (h : SameBesidesFraming (s.withSession p ch) t) : SameBesidesFraming s t :=
  ⟨h.cfg, h.asset, h.fontPtr, h.boundX, h.boundY, h.boundW, h.boundH, h.program, h.position, h.resets⟩

/-- OPEN may write the session and the framebuffer (R194). -/
theorem execOpen_respectsWriters {v : Byte} {l : Coord} {p : Addr} {s t : State} (h : execOpen v l p s = .next t) :
    RespectsWriters (.openDisplay v l p) s t := by
  by_cases hv : v = 0
  · subst hv
    exact raise_respectsWriters h
  by_cases hp : s.pstate = .closed
  · rw [execOpen_closed hv hp] at h
    obtain rfl := Host.Outcome.next.inj h
    exact (runFramer_frame _ _ _).of_withSession.respectsWriters (.inr (.inl ⟨v, l, p, rfl⟩)) (.inr (.inl ⟨v, l, p, rfl⟩))
  · rw [execOpen_open hv hp] at h
    exact raise_respectsWriters h

/-- SYNC only sends frames (R195). -/
theorem execSync_respectsWriters {s t : State} (h : execSync s = .next t) : RespectsWriters .sync s t := by
  by_cases hp : s.pstate = .ready
  · rw [execSync_ready hp] at h
    obtain rfl := Host.Outcome.next.inj h
    obtain ⟨hpstate, hch, hfb⟩ := runFramer_sends [.cursor, .buffer] false s
    exact (runFramer_frame _ _ _).respectsWriters (.inl ⟨hpstate, hch⟩) (.inl hfb)
  · rw [execSync_notReady hp] at h
    exact raise_respectsWriters h

/-- CLOSE may write the session, and with the clean flag the framebuffer (R196). -/
theorem execClose_respectsWriters {v : Byte} {s t : State} (h : execClose v s = .next t) :
    RespectsWriters (.close v) s t := by
  have hsession : (t.pstate = s.pstate ∧ t.ch = s.ch) ∨
      (∃ u l p, Instr.close v = .openDisplay u l p) ∨ ∃ u, Instr.close v = .close u := .inr (.inr ⟨v, rfl⟩)
  by_cases hp : s.pstate = .ready
  · by_cases hv : v = 0
    · subst hv
      rw [execClose_keep hp] at h
      obtain rfl := Host.Outcome.next.inj h
      exact (runFramer_frame _ _ _).respectsWriters hsession (.inl rfl)
    · rw [execClose_clean hv hp] at h
      obtain rfl := Host.Outcome.next.inj h
      exact (runFramer_frame _ _ _).respectsWriters hsession (.inr (.inr ⟨v, hv, rfl⟩))
  · rw [execClose_notReady hp] at h
    exact raise_respectsWriters h

/-- Every operation respects the writers of R20. -/
theorem exec_respectsWriters {i : Instr} {s t : State} (h : exec i s = .next t) : RespectsWriters i s t := by
  cases i with
  | setpx x y v => exact draw_respectsWriters rfl h
  | line x0 y0 x1 y1 v => exact draw_respectsWriters rfl h
  | rect x0 y0 x1 y1 v => exact draw_respectsWriters rfl h
  | rectf x0 y0 x1 y1 v => exact draw_respectsWriters rfl h
  | circ x0 y0 r v => exact draw_respectsWriters rfl h
  | circf x0 y0 r v => exact draw_respectsWriters rfl h
  | icon x y w k v p => exact draw_respectsWriters rfl h
  | glyph x y ch v => exact withBoundFont_respectsWriters (fun f hk => draw_respectsWriters rfl hk) h
  | wstr x y v l p => exact withBoundFont_respectsWriters (fun f hk => draw_respectsWriters rfl hk) h
  | fill v =>
    obtain rfl := done_eq_next h
    exact { frame := .inr (.inr (.inl ⟨v, rfl⟩)) }
  | clear =>
    obtain rfl := done_eq_next h
    exact { frame := .inr (.inr (.inr (.inl rfl))) }
  | setfont p =>
    obtain rfl := done_eq_next h
    exact { font := .inr ⟨p, rfl⟩ }
  | strb l p => exact execStrb_respectsWriters h
  | just w k m => exact execJust_respectsWriters h
  | openDisplay v l p => exact execOpen_respectsWriters h
  | sync => exact execSync_respectsWriters h
  | close v => exact execClose_respectsWriters h
  | reset v => exact raise_respectsWriters h

/-- Settles O49: the fields of what every operation respects are the statement's conjuncts. -/
theorem registersHaveTheirWriters : Obligations.RegistersHaveTheirWriters := by
  intro i s t h
  obtain ⟨hcfg, hasset, hprogram, hposition, hresets, hfont, horigin, hextent, hsession, hframe⟩ := exec_respectsWriters h
  exact ⟨hcfg, hasset, hprogram, hposition, hresets, hfont, horigin, hextent, hsession, hframe⟩

/-! ### `STATUS.LAST` is not read (R26) -/

/-- Framer actions from states that differ in `STATUS.LAST` end in one state, or wait in states that differ only there. -/
theorem runFramer_withLast (acts : List FramerAction) (m : Bool) (s : State) (c : ResultCode) :
    runFramer acts m (s.withLast c) = runFramer acts m s ∨
    (runFramer acts m (s.withLast c) = (runFramer acts m s).withLast c ∧ (runFramer acts m s).inProgress ≠ none) := by
  induction acts generalizing m s with
  | nil => exact .inl rfl
  | cons a rest ih =>
    cases a with
    | blank => exact ih m (s.withFrame (fillAll s.cfg false))
    | ready => exact ih m (s.withSession .ready s.ch)
    | release => exact ih m ((s.emit (.release s.ch)).withSession .closed 0)
    | send f =>
      cases ha : s.answers with
      | nil =>
        rw [runFramer_send_waits ha, runFramer_send_waits (s := s.withLast c) ha]
        exact .inr ⟨rfl, Option.some_ne_none _⟩
      | cons n more =>
        rw [runFramer_send_answered ha, runFramer_send_answered (s := s.withLast c) ha]
        exact ih _ (((s.emit (.write s.ch (frameBytesOf s f))).withAnswers more).emit (.answer n))

/-- An operation does not read `STATUS.LAST`: what it ends in is the same whatever the code before, and where it waits the
code before is all that differs. -/
def LastUnread (k : State → Result) : Prop :=
  ∀ s c, k (s.withLast c) = k s ∨
    ∃ t, k s = .next t ∧ t.inProgress ≠ none ∧ k (s.withLast c) = .next (t.withLast c)

/-- A failure overwrites the code. -/
theorem raise_lastUnread (code : ResultCode) : LastUnread (raise code) :=
  fun _ _ => .inl rfl

/-- An operation that ends normally overwrites the code, when its update commutes with a change of it. -/
theorem done_lastUnread {u : State → State} (hu : ∀ s c, u (s.withLast c) = (u s).withLast c) :
    LastUnread fun s => done (u s) := by
  intro s c
  refine .inl ?_
  simp only [hu]
  rfl

/-- A drawing operation makes the same calls of SetPixel whatever the code. -/
theorem draw_lastUnread {ps : State → List Plot} (h : ∀ s c, ps (s.withLast c) = ps s) :
    LastUnread fun s => draw (ps s) s :=
  done_lastUnread fun s c => by rw [h]; rfl

/-- Whether a font is bound does not depend on the code (R162). -/
theorem withBoundFont_lastUnread {k : State → Font → Result} (hk : ∀ f, LastUnread fun s => k s f) :
    LastUnread fun s => withBoundFont s (k s) := by
  intro s c
  by_cases hf : s.fontPtr = 0
  · have hf' : (s.withLast c).fontPtr = 0 := hf
    simp only [withBoundFont_unbound hf, withBoundFont_unbound hf']
    exact raise_lastUnread .invalidReference s c
  · have hf' : (s.withLast c).fontPtr ≠ 0 := hf
    simp only [withBoundFont_bound hf, withBoundFont_bound hf']
    exact hk (loadFont s.asset s.fontPtr) s c

/-- GLYPH draws with the bound font (R166). -/
theorem execGlyph_lastUnread (x y : Coord) (ch v : Byte) : LastUnread (execGlyph x y ch v) := by
  refine withBoundFont_lastUnread fun f => ?_
  exact draw_lastUnread fun _ _ => rfl

/-- WSTR draws with the bound font (R167). -/
theorem execWstr_lastUnread (x y : Coord) (v : Byte) (l : Coord) (p : Addr) : LastUnread (execWstr x y v l p) := by
  refine withBoundFont_lastUnread fun f => ?_
  exact draw_lastUnread fun _ _ => rfl

/-- STRB measures with the bound font (R168). -/
theorem execStrb_lastUnread (l : Coord) (p : Addr) : LastUnread (execStrb l p) := by
  refine withBoundFont_lastUnread fun f => ?_
  exact done_lastUnread fun _ _ => rfl

/-- JUST looks at its mode and the bound's extent (R169). -/
theorem execJust_lastUnread (w h : Coord) (mode : Byte) : LastUnread (execJust w h mode) := by
  unfold execJust
  generalize mode.toNat = m
  match m with
  | 0 | 1 | 2 => exact done_lastUnread fun _ _ => rfl
  | _ + 3 => exact raise_lastUnread .illegalOperation

/-- A run of framer actions, from an update that does not look at the code. -/
theorem runFramer_lastUnread {u : State → State} (hu : ∀ s c, u (s.withLast c) = (u s).withLast c)
    (acts : List FramerAction) (m : Bool) : LastUnread fun s => .next (runFramer acts m (u s)) := by
  intro s c
  simp only [hu]
  exact (runFramer_withLast acts m (u s) c).imp (congrArg _) fun ⟨hlast, hwaits⟩ => ⟨_, rfl, hwaits, congrArg _ hlast⟩

/-- Which of its cases OPEN is in depends on its channel and the lifecycle state (R194). -/
theorem execOpen_lastUnread (v : Byte) (l : Coord) (p : Addr) : LastUnread (execOpen v l p) := by
  intro s c
  by_cases hv : v = 0
  · subst hv
    exact raise_lastUnread .channelUnavailable s c
  by_cases hp : s.pstate = .closed
  · rw [execOpen_closed hv hp, execOpen_closed (s := s.withLast c) hv hp]
    exact runFramer_lastUnread (u := (State.withSession · .initializing v)) (fun _ _ => rfl) _ _ s c
  · rw [execOpen_open hv hp, execOpen_open (s := s.withLast c) hv hp]
    exact raise_lastUnread .badState s c

/-- Which of its cases SYNC is in depends on the lifecycle state (R195). -/
theorem execSync_lastUnread : LastUnread execSync := by
  intro s c
  by_cases hp : s.pstate = .ready
  · rw [execSync_ready hp, execSync_ready (s := s.withLast c) hp]
    exact runFramer_lastUnread (u := id) (fun _ _ => rfl) _ _ s c
  · rw [execSync_notReady hp, execSync_notReady (s := s.withLast c) hp]
    exact raise_lastUnread .channelUnavailable s c

/-- Which of its cases CLOSE is in depends on the lifecycle state and the clean flag (R196). -/
theorem execClose_lastUnread (v : Byte) : LastUnread (execClose v) := by
  intro s c
  by_cases hp : s.pstate = .ready
  · by_cases hv : v = 0
    · subst hv
      rw [execClose_keep hp, execClose_keep (s := s.withLast c) hp]
      exact runFramer_lastUnread (u := id) (fun _ _ => rfl) _ _ s c
    · rw [execClose_clean hv hp, execClose_clean (s := s.withLast c) hv hp]
      exact runFramer_lastUnread (u := id) (fun _ _ => rfl) _ _ s c
  · rw [execClose_notReady hp, execClose_notReady (s := s.withLast c) hp]
    exact raise_lastUnread .channelUnavailable s c

/-- No operation reads the code. -/
theorem exec_lastUnread (i : Instr) : LastUnread (exec i) := by
  cases i with
  | setpx x y v => exact draw_lastUnread fun _ _ => rfl
  | line x0 y0 x1 y1 v => exact draw_lastUnread fun _ _ => rfl
  | rect x0 y0 x1 y1 v => exact draw_lastUnread fun _ _ => rfl
  | rectf x0 y0 x1 y1 v => exact draw_lastUnread fun _ _ => rfl
  | circ x0 y0 r v => exact draw_lastUnread fun _ _ => rfl
  | circf x0 y0 r v => exact draw_lastUnread fun _ _ => rfl
  | icon x y w h v p => exact draw_lastUnread fun _ _ => rfl
  | fill v => exact done_lastUnread fun _ _ => rfl
  | clear => exact done_lastUnread fun _ _ => rfl
  | setfont p => exact done_lastUnread fun _ _ => rfl
  | glyph x y ch v => exact execGlyph_lastUnread x y ch v
  | wstr x y v l p => exact execWstr_lastUnread x y v l p
  | strb l p => exact execStrb_lastUnread l p
  | just w h m => exact execJust_lastUnread w h m
  | openDisplay v l p => exact execOpen_lastUnread v l p
  | sync => exact execSync_lastUnread
  | close v => exact execClose_lastUnread v
  | reset v => exact raise_lastUnread .illegalOperation

/-- Settles O50: where the operation has ended the next states are equal, and where it waits the code is the difference. -/
theorem lastIsNeverRead : Obligations.LastIsNeverRead := by
  intro i s t c h
  obtain hsame | ⟨u, hu, hwaits, hlast⟩ := exec_lastUnread i s c
  · exact ⟨t, hsame.trans h, rfl, fun _ _ => rfl⟩
  · obtain rfl : u = t := Host.Outcome.next.inj (hu.symm.trans h)
    exact ⟨u.withLast c, hlast, rfl, fun _ hended => absurd hended hwaits⟩

/-! ### The placed descriptor (R30, R81; log 6) -/

/-- Byte `n` of the port as a number: the base-256 digit `n` of the descriptor (R81). -/
theorem portByte_toNat (w : Descriptor) (n : Nat) : (portByte w n).toNat = w.toNat / 256 ^ n % 256 := by
  rw [portByte, BitVec.extractLsb'_toNat, Nat.shiftRight_eq_div_pow, Nat.pow_mul]

/-- A run of port bytes is that run of base-256 digits of the descriptor. -/
theorem natOfBytes_portByte_range' (w : Descriptor) (k n : Nat) :
    natOfBytes ((List.range' k n).map (portByte w)) = w.toNat / 256 ^ k % 256 ^ n := by
  induction n generalizing k with
  | zero => simp [natOfBytes, Nat.mod_one]
  | succ n ih =>
    rw [List.range'_succ, List.map_cons, natOfBytes, portByte_toNat, ih, pow_succ' 256 n, Nat.mod_mul,
      Nat.div_div_eq_div_mul, ← pow_succ]

/-- The 16 port bytes carry the whole descriptor. -/
theorem descriptorOfBytes_portBytes (w : Descriptor) : descriptorOfBytes (portBytes w) = .ok w := by
  have hbytes : natOfBytes (portBytes w) = w.toNat := by
    rw [portBytes, List.range_eq_range', natOfBytes_portByte_range', pow_zero, Nat.div_one]
    exact Nat.mod_eq_of_lt w.isLt
  rw [descriptorOfBytes, if_pos (by simp [portBytes]), hbytes, BitVec.ofNat_toNat, BitVec.setWidth_eq]

/-- The decoder's answer to the host is what the placed descriptor decodes to. -/
theorem decode_tableDescriptor {nbits w : Nat} {i : Instr} (h : decodeTableWord nbits w = some i) :
    decode (tableDescriptor nbits w) = .ok i := by
  rw [decodeTableWord, decodeBytes, descriptorOfBytes_portBytes] at h
  cases hdec : decode (tableDescriptor nbits w) with
  | ok j => simpa [hdec] using h
  | error r => simp [hdec] at h

/-- Settles O7: the placed descriptor stands at the position, and no operation is in progress. -/
theorem placedWordRunsNext : Obligations.PlacedWordRunsNext := by
  intro s nbits w i h
  have hplaced : (s.withFetchWord nbits w).program[(s.withFetchWord nbits w).position]? = some (tableDescriptor nbits w) :=
    placeAt_getElem s.program s.position (tableDescriptor nbits w)
  rw [step_takes rfl hplaced, execDescriptor_of_decode (decode_tableDescriptor h)]

/-! ### The register-read port (R28) -/

/-- `LAST` is bits 3..0 of `STATUS`. -/
theorem statusWord_last (s : State) : s.statusWord.extractLsb' 0 4 = s.last.code :=
  BitVec.extractLsb'_append_eq_right

/-- `PSTATE` is bits 5..4 of `STATUS`. -/
theorem statusWord_pstate (s : State) : s.statusWord.extractLsb' 4 2 = s.pstate.code := by
  rw [State.statusWord, BitVec.extractLsb'_append_eq_of_le (by norm_num)]
  exact BitVec.extractLsb'_append_eq_right

/-- `FONT_VALID` is bit 6 of `STATUS`. -/
theorem statusWord_fontValid (s : State) : s.statusWord.getLsbD 6 = s.fontValid := by
  rw [State.statusWord, BitVec.getLsbD_append, if_neg (by norm_num), BitVec.getLsbD_append, if_neg (by norm_num),
    BitVec.getLsbD_append, if_pos (by norm_num)]
  exact BitVec.getLsbD_ofBool _ _

/-- The bits of `STATUS` above `FONT_VALID` are zero. -/
theorem statusWord_high (s : State) : s.statusWord.extractLsb' 7 25 = 0 := by
  rw [State.statusWord, BitVec.extractLsb'_append_eq_of_le (by norm_num),
    BitVec.extractLsb'_append_eq_of_le (by norm_num)]
  exact BitVec.extractLsb'_append_eq_left

/-- `WIDTH` fits its register. -/
theorem register_width (s : State) : (s.register 0).toNat = s.cfg.width := by
  have hwidth := config_width_bounds s.cfg
  exact (BitVec.toNat_ofNat ..).trans (Nat.mod_eq_of_lt (by omega))

/-- `HEIGHT` fits its register. -/
theorem register_height (s : State) : (s.register 1).toNat = s.cfg.height := by
  have hheight := config_height_bounds s.cfg
  exact (BitVec.toNat_ofNat ..).trans (Nat.mod_eq_of_lt (by omega))

/-- The bounds and the channel handle are zero-extended, so they read as their own value. -/
theorem register_zeroExtended (s : State) :
    (s.register 4).toNat = s.boundX.toNat ∧ (s.register 5).toNat = s.boundY.toNat ∧
    (s.register 6).toNat = s.boundW.toNat ∧ (s.register 7).toNat = s.boundH.toNat ∧ (s.register 8).toNat = s.ch.toNat := by
  refine ⟨?_, ?_, ?_, ?_, ?_⟩ <;> exact BitVec.toNat_setWidth_of_le (by norm_num)

/-- Numbers 9 to 15 are reserved and read as 0. -/
theorem register_reserved (s : State) {n : BitVec 4} (h : 9 ≤ n.toNat) : s.register n = 0 := by
  obtain ⟨k, hk⟩ := Nat.exists_eq_add_of_le' h
  rw [State.register, hk]
  rfl

/-- Settles O52: `STATUS` shows the result code, the lifecycle state and whether a font is bound, each in its field, by the
numbers of rules R22, R26 and R221. -/
theorem registerPortReadsTheRegisters : Obligations.RegisterPortReadsTheRegisters := by
  intro s
  refine ⟨fun hidle => ?_, fun hbusy n => ?_⟩
  · have hread := readRegister_idle hidle
    obtain ⟨hx, hy, hw, hh, hch⟩ := register_zeroExtended s
    refine ⟨⟨_, hread 0, register_width s⟩, ⟨_, hread 1, register_height s⟩,
      ⟨s.statusWord, hread 2, ?_, ?_, statusWord_fontValid s, statusWord_high s⟩, hread 3, ⟨_, hread 4, hx⟩,
      ⟨_, hread 5, hy⟩, ⟨_, hread 6, hw⟩, ⟨_, hread 7, hh⟩, ⟨_, hread 8, hch⟩, fun n hn => ?_⟩
    · rw [statusWord_last]
      cases s.last <;> rfl
    · rw [statusWord_pstate]
      cases s.pstate <;> rfl
    · rw [hread, register_reserved s hn]
  · obtain ⟨w, hw⟩ := Option.ne_none_iff_exists'.mp hbusy
    exact readRegister_busy hw n

/-! ### The state after reset (R35, R240) -/

/-- The invariant holds after reset: the framebuffer is a draw of its own length, nothing is bound, nothing is listed. -/
theorem reset_inv : Inv State.reset := by
  have hmem : MemoryInv State.reset := ⟨memory_ofFn_wf _ _, memory_ofFn_within _ _, by decide⟩
  have hsession : SessionInv State.reset :=
    ⟨iff_of_false (not_not_intro rfl) (not_not_intro rfl), fun _ => nofun, fun _ => nofun⟩
  have hbounds : BoundsInv State.reset := ⟨Nat.zero_le _, Nat.zero_le _⟩
  have hpos : PositionInv State.reset := ⟨Nat.zero_le _, fun hbusy => absurd rfl hbusy⟩
  exact ⟨hmem, hsession, hbounds, hpos⟩

/-- With no event there is no Data frame. -/
theorem flushesPaired_of_no_events {s : State} (h : s.events = []) : FlushesPaired s := by
  intro before ch frame after hev
  simp [h] at hev

/-- Settles O54: the registers are the values written for reset, the framebuffer reads as its draw, and the discipline of
the frames holds of a PAC that has sent none. -/
theorem resetLeavesTheStatedValues : Obligations.ResetLeavesTheStatedValues := by
  refine ⟨rfl, rfl, rfl, rfl, rfl, rfl, rfl, rfl, rfl, fun a ha => ?_, reset_inv,
    flushesPaired_of_no_events rfl, fun _ => nofun⟩
  exact (memory_read_ofFn _ _ a).trans (if_pos ha)

end Sys2Proof.Machine
end

section
/-! SUPPORT. The statements on memory (20_memory.md): the pixel-address function, which framebuffer bytes drawing stores to,
and how the bytes of asset memory are put together. -/

namespace Sys2Proof.Machine

/-! ### The pixel-address function (R51) -/

/-- The page of a framebuffer byte has its eight rows inside the panel. -/
theorem row_of_byte_lt {c : Config} {i b : Nat} (hi : i < c.frameBytes) (hb : b < 8) :
    8 * (i / c.width) + b < c.height := by
  rw [config_frameBytes_eq] at hi
  have hpage : i / c.width < c.height / 8 := Nat.div_lt_of_lt_mul (by rwa [Nat.mul_comm])
  omega

/-- The pixel at a byte's column, in any row of its page, has that byte. -/
theorem byteIndex_of_byte (c : Config) (i : Nat) {b : Nat} (hb : b < 8) :
    byteIndex c (i % c.width) (8 * (i / c.width) + b) = i := by
  have hpage : (8 * (i / c.width) + b) / 8 = i / c.width := by omega
  rw [byteIndex, hpage, Nat.div_add_mod']

/-- Settles O13: byte and bit give a pixel's column, page and row in the page back, and every byte and bit has a pixel. -/
theorem pixelAddressIsABijection : Obligations.PixelAddressIsABijection := by
  refine fun c => ⟨fun _ _ => rfl, fun _ _ => byteIndex_lt, ?injective, ?surjective⟩
  case injective =>
    intro x y x' y' hx _ hx' _ hbyte hbit
    obtain ⟨hcolumn, hpage⟩ := byteIndex_inj hx hx' hbyte
    exact ⟨hcolumn, by omega⟩
  case surjective =>
    intro i b hi hb
    have hw : 0 < c.width := (config_width_bounds c).1
    exact ⟨Nat.mod_lt i hw, row_of_byte_lt hi hb, byteIndex_of_byte c i hb, by omega⟩

/-! ### What drawing stores to (R53, R64, R110) -/

/-- Drawing with the bound font makes the calls that font gives, or fails while none is bound (R162). -/
theorem withBoundFont_draw (s : State) (calls : Font → List Plot) :
    (withBoundFont s fun f => draw (calls f) s) =
        draw (if s.fontPtr = 0 then [] else calls (loadFont s.asset s.fontPtr)) s ∨
      s.fontPtr = 0 ∧ (withBoundFont s fun f => draw (calls f) s) = raise .invalidReference s := by
  by_cases hf : s.fontPtr = 0
  · exact .inr ⟨hf, withBoundFont_unbound hf _⟩
  · rw [if_neg hf]
    exact .inl (withBoundFont_bound hf _)

/-- What an operation that draws through SetPixel does, said once: it makes its calls and is done, or it needs a font, none
is bound, and it fails. -/
theorem exec_of_drawsByPixel {i : Instr} (hi : drawsByPixel i = true) (s : State) :
    exec i s = draw (callsOf s i) s ∨ s.fontPtr = 0 ∧ exec i s = raise .invalidReference s := by
  cases i with
  | setpx x y v => exact .inl rfl
  | line x0 y0 x1 y1 v => exact .inl rfl
  | rect x0 y0 x1 y1 v => exact .inl rfl
  | rectf x0 y0 x1 y1 v => exact .inl rfl
  | circ x0 y0 r v => exact .inl rfl
  | circf x0 y0 r v => exact .inl rfl
  | icon x y w h v p => exact .inl rfl
  | glyph x y ch v => exact withBoundFont_draw s fun f => plots (isOn v) (charPoints s.cfg s.asset f ch x y)
  | wstr x y v l p =>
    exact withBoundFont_draw s fun f =>
      plots (isOn v) (stringPoints s.cfg s.asset f y (assetBytes s.asset p l.toNat) x)
  | fill | clear | setfont | strb | just | openDisplay | sync | close | reset => cases hi

/-- Settles O28: the calls store to their own pixels' bytes, which clamping keeps in the framebuffer, and a failure stores
nothing. -/
theorem drawingStoresOnlyToItsPixelBytes : Obligations.DrawingStoresOnlyToItsPixelBytes := by
  intro s i hi hwf
  have hrange : ∀ p ∈ callsOf s i, pixelByte s.cfg p.at_.1 p.at_.2 < s.cfg.frameBytes := fun p _ => pixelByte_lt ..
  obtain hdraws | ⟨-, hfails⟩ := exec_of_drawsByPixel hi s
  · exact ⟨_, hdraws, rfl, hrange, fun a ha => plotAll_read_other (callsOf s i) hwf ha⟩
  · exact ⟨_, hfails, rfl, hrange, fun _ _ => rfl⟩

/-! ### Asset reads (R54, R55, R56) -/

/-- An address further on is the number further on, modulo 2^32. -/
theorem offset_eq_ofNat (a : Addr) (n : Nat) : Addr.offset a n = BitVec.ofNat 32 (a.toNat + n) := by
  rw [Addr.offset, BitVec.ofNat_add, BitVec.ofNat_toNat, BitVec.setWidth_eq]

/-- Going further on twice is going on by the sum. -/
theorem offset_offset (a : Addr) (n k : Nat) : Addr.offset (Addr.offset a n) k = Addr.offset a (n + k) := by
  rw [Addr.offset, Addr.offset, Addr.offset, BitVec.ofNat_add, BitVec.add_assoc]

/-- A byte further on is read at the address wrapped modulo 2^32. -/
theorem a8_offset (m : Memory) (a : Addr) (n : Nat) : a8 m (Addr.offset a n) = m.read ((a.toNat + n) % 2 ^ 32) := by
  rw [a8, offset_eq_ofNat, BitVec.toNat_ofNat]

/-- Two words side by side are a number whose high digit is the first one. -/
theorem toNat_append_eq_add {j k : Nat} (hi : BitVec j) (lo : BitVec k) :
    (hi ++ lo).toNat = lo.toNat + 2 ^ k * hi.toNat := by
  rw [BitVec.toNat_append, ← Nat.shiftLeft_add_eq_or_of_lt lo.isLt, Nat.shiftLeft_eq, Nat.add_comm, Nat.mul_comm]

/-- A half word is its low byte and 256 times its high byte. -/
theorem a16_toNat (m : Memory) (a : Addr) : (a16 m a).toNat = (a8 m a).toNat + 256 * (a8 m (Addr.offset a 1)).toNat :=
  toNat_append_eq_add (a8 m (Addr.offset a 1)) (a8 m a)

/-- A word is its low half word and 65536 times its high half word. -/
theorem a32_toNat (m : Memory) (a : Addr) :
    (a32 m a).toNat = (a16 m a).toNat + 65536 * (a16 m (Addr.offset a 2)).toNat :=
  toNat_append_eq_add (a16 m (Addr.offset a 2)) (a16 m a)

/-- Settles O29: words and half words are sums of bytes, each read at its wrapped address, and stream bits are counted from
the top of such a byte or word. -/
theorem assetReadsAreLittleEndian : Obligations.AssetReadsAreLittleEndian := by
  refine fun m a n => ⟨a8_offset m a n, ?half, ?word, ?glyphBit, ?iconBit⟩
  case half => rw [a16_toNat, a8_offset]
  case word =>
    have htop : Addr.offset (Addr.offset a 2) 1 = Addr.offset a 3 := offset_offset a 2 1
    rw [a32_toNat, a16_toNat, a16_toNat, htop, a8_offset, a8_offset, a8_offset]
    omega
  case glyphBit => rw [streamBit, a8_offset]
  case iconBit => rw [iconBit, offset_eq_ofNat]

end Sys2Proof.Machine
end

section
/-! SUPPORT. The statements on the encoding (30_encoding.md): decoding undoes encoding, the fields an operation does not use
are ignored, unassigned opcodes are no-ops, and the port bytes carry the descriptor. -/

namespace Sys2Proof.Machine

/-! ### A descriptor and its fields (R80) -/

/-- A descriptor is its fields laid side by side: as numbers, the fields are its digits. -/
theorem packFields_fields (w : Descriptor) :
    packFields (fieldOp w) (fieldV w) (fieldA w) (fieldB w) (fieldC w) (fieldD w) (fieldL w) (fieldP w) = w := by
  apply BitVec.eq_of_toNat_eq
  simp only [packFields, fieldOp, fieldV, fieldA, fieldB, fieldC, fieldD, fieldL, fieldP, toNat_append_eq_add,
    BitVec.extractLsb'_toNat, Nat.shiftRight_eq_div_pow]
  omega

section
variable (w w' : Descriptor)

@[simp] theorem fieldOp_and : fieldOp (w &&& w') = fieldOp w &&& fieldOp w' := BitVec.extractLsb'_and
@[simp] theorem fieldV_and : fieldV (w &&& w') = fieldV w &&& fieldV w' := BitVec.extractLsb'_and
@[simp] theorem fieldA_and : fieldA (w &&& w') = fieldA w &&& fieldA w' := BitVec.extractLsb'_and
@[simp] theorem fieldB_and : fieldB (w &&& w') = fieldB w &&& fieldB w' := BitVec.extractLsb'_and
@[simp] theorem fieldC_and : fieldC (w &&& w') = fieldC w &&& fieldC w' := BitVec.extractLsb'_and
@[simp] theorem fieldD_and : fieldD (w &&& w') = fieldD w &&& fieldD w' := BitVec.extractLsb'_and
@[simp] theorem fieldL_and : fieldL (w &&& w') = fieldL w &&& fieldL w' := BitVec.extractLsb'_and
@[simp] theorem fieldP_and : fieldP (w &&& w') = fieldP w &&& fieldP w' := BitVec.extractLsb'_and

end

/-- A mask made of fields masks each field by its own part. -/
theorem and_packFields (w : Descriptor) (op v : Byte) (a b c d l : Coord) (p : Addr) :
    w &&& packFields op v a b c d l p =
      packFields (fieldOp w &&& op) (fieldV w &&& v) (fieldA w &&& a) (fieldB w &&& b) (fieldC w &&& c)
        (fieldD w &&& d) (fieldL w &&& l) (fieldP w &&& p) := by
  rw [← packFields_fields (w &&& packFields op v a b c d l p)]
  simp

/-- A byte all of whose bits are used. -/
@[simp] theorem byte_and_ones (b : Byte) : b &&& 0xFF#8 = b := BitVec.and_allOnes

/-- A coordinate all of whose bits are used. -/
@[simp] theorem coord_and_ones (c : Coord) : c &&& 0xFFFF#16 = c := BitVec.and_allOnes

/-- An address all of whose bits are used. -/
@[simp] theorem addr_and_ones (a : Addr) : a &&& 0xFFFFFFFF#32 = a := BitVec.and_allOnes

/-- The used bits of GLYPH's field `C` are its character (R87). -/
theorem fieldC_and_char (w : Descriptor) : fieldC w &&& 0x00FF#16 = (fieldChar w).setWidth 16 := by
  apply BitVec.eq_of_toNat_eq
  have hlow : (fieldC w).toNat &&& 255 = (fieldC w).toNat % 256 := Nat.and_two_pow_sub_one_eq_mod _ 8
  have hchar : (fieldC w).toNat % 256 < 65536 := by omega
  simp [fieldChar, hlow, Nat.mod_eq_of_lt hchar]

/-- The character is the low byte of the field it is written to (R87). -/
theorem char_of_field (ch : Byte) : (ch.setWidth 16).extractLsb' 0 8 = ch := by
  rw [← BitVec.setWidth_eq_extractLsb' (by decide), BitVec.setWidth_setWidth_of_le _ (by decide), BitVec.setWidth_eq]

/-! ### Decoding undoes encoding (R82, R87) -/

/-- The `OP` field of an operation's descriptor is its operation code. -/
theorem fieldOp_encode (i : Instr) : fieldOp (encode i) = i.opcode := by
  cases i <;> exact fieldOp_packFields ..

/-- Decoding looks at the operation code and reads back the fields written; GLYPH's character is half a field. -/
theorem decode_encode (i : Instr) : decode (encode i) = .ok i := by
  rw [decode, fieldOp_encode]
  cases i with
  | glyph x y ch v => simp [Instr.opcode, encode, fieldChar, char_of_field]
  | setpx | fill | clear | line | rect | rectf | circ | circf | icon | setfont | wstr | strb | just | openDisplay | sync
  | close | reset => simp [Instr.opcode, encode]

/-- Settles O1. -/
theorem decodeOfEncodeIsTheOperation : Obligations.DecodeOfEncodeIsTheOperation :=
  decode_encode

/-! ### The fields an operation uses (R83, R84) -/

/-- The byte of a number that the decoder has matched. -/
theorem byte_eq_ofNat {b : Byte} {n : Nat} (h : b.toNat = n) : b = BitVec.ofNat 8 n := by
  rw [← h, BitVec.ofNat_toNat, BitVec.setWidth_eq]

/-- The decoded operation's descriptor is the one decoded with its unused bits zero: in each row of R82 the mask keeps the
fields that were read, and the encoder writes zero to the others. -/
theorem encode_of_decode {w : Descriptor} {i : Instr} (h : decode w = .ok i) :
    encode i = w &&& usedBits (fieldOp w) := by
  unfold decode at h
  split at h
  case h_19 => cases h
  all_goals
    rename_i hcode
    cases h
    have hop := byte_eq_ofNat hcode
    simp [encode, Instr.opcode, usedBits, hop, and_packFields, fieldC_and_char]

/-- Every bit of `OP` is used, whatever the operation. -/
theorem fieldOp_usedBits (op : Byte) : fieldOp (usedBits op) = 0xFF := by
  unfold usedBits
  split <;> exact fieldOp_packFields ..

/-- Zeroing unused bits leaves `OP` as it is. -/
theorem fieldOp_and_usedBits (w : Descriptor) (op : Byte) : fieldOp (w &&& usedBits op) = fieldOp w := by
  rw [fieldOp_and, fieldOp_usedBits]
  exact byte_and_ones _

/-- A descriptor's `OP` is the code of the operation it decodes to. -/
theorem opcode_of_decode {w : Descriptor} {i : Instr} (h : decode w = .ok i) : i.opcode = fieldOp w := by
  rw [← fieldOp_encode, encode_of_decode h, fieldOp_and_usedBits]

/-! ### Assigned and unassigned opcodes (R82, R85) -/

/-- A descriptor decodes exactly when its `OP` is assigned: an operation has one of the 18 codes, and each has its branch in
the decoder. -/
theorem decode_isOk_iff (w : Descriptor) : (∃ i, decode w = .ok i) ↔
    (fieldOp w).toNat ∈ [0x01, 0x02, 0x03, 0x10, 0x11, 0x12, 0x13, 0x14, 0x15, 0x20, 0x21, 0x22, 0x23, 0x24, 0x30, 0x31,
      0x32, 0x33] := by
  constructor
  · rintro ⟨i, h⟩
    rw [← opcode_of_decode h]
    cases i <;> simp [Instr.opcode]
  · intro hassigned
    unfold decode
    split
    -- The last branch is for a code that is none of the 18.
    case h_19 => simp_all
    all_goals exact ⟨_, rfl⟩

/-- A rejected descriptor is rejected for its `OP`. -/
theorem rejected_for_opcode {w : Descriptor} {r : Reject} (h : decode w = .error r) :
    r = .unassignedOpcode (fieldOp w) := by
  unfold decode at h
  split at h
  case h_19 => exact (Except.error.inj h).symm
  all_goals cases h

/-- Zeroing the unused bits changes nothing that decoding sees: an operation is what its encoding decodes to, and a
rejection is for `OP`, which the mask keeps. -/
theorem decode_and_usedBits (w : Descriptor) : decode (w &&& usedBits (fieldOp w)) = decode w := by
  cases hw : decode w with
  | ok i => rw [← encode_of_decode hw, decode_encode]
  | error r =>
    cases hmasked : decode (w &&& usedBits (fieldOp w)) with
    | ok i =>
      have hassigned := (decode_isOk_iff _).mp ⟨i, hmasked⟩
      rw [fieldOp_and_usedBits] at hassigned
      obtain ⟨j, hj⟩ := (decode_isOk_iff w).mpr hassigned
      cases hw.symm.trans hj
    | error r' => rw [rejected_for_opcode hw, rejected_for_opcode hmasked, fieldOp_and_usedBits]

/-- Settles O2: descriptors that agree on the used bits have the same `OP`, so the same mask, and decode as what the mask
leaves of them. -/
theorem unusedFieldsAreIgnored : Obligations.UnusedFieldsAreIgnored := by
  refine ⟨fun w w' h => ?_, fun w i => encode_of_decode⟩
  have hop : fieldOp w = fieldOp w' := by
    simpa only [fieldOp_and_usedBits] using congrArg fieldOp h
  calc decode w = decode (w &&& usedBits (fieldOp w)) := (decode_and_usedBits w).symm
    _ = decode (w' &&& usedBits (fieldOp w')) := by rw [h, hop]
    _ = decode w' := decode_and_usedBits w'

/-- A descriptor that stands for no operation executes as an illegal no-op. -/
theorem execDescriptor_of_rejected {w : Descriptor} (h : ∀ i, decode w ≠ .ok i) (s : State) :
    execDescriptor w s = raise .illegalOperation s := by
  unfold execDescriptor
  cases hw : decode w with
  | ok i => exact absurd hw (h i)
  | error r => rfl

/-- Settles O3: the step takes the descriptor, raises, and retires, as no operation is in progress. -/
theorem unassignedOpcodesAreIllegalNoOps : Obligations.UnassignedOpcodesAreIllegalNoOps := by
  refine ⟨decode_isOk_iff, fun s w hidle hfetch hrejected => ?_⟩
  have hidle' : (s.withLast .illegalOperation).inProgress = none := hidle
  rw [step_takes hidle hfetch, execDescriptor_of_rejected hrejected, raise, retireResult, retire_idle hidle']
  rfl

/-! ### The port bytes (R81) -/

/-- A byte of a field is the byte of the descriptor that stands there. -/
theorem byte_of_field (w : Descriptor) {start len n : Nat} (h : n + 8 ≤ len) :
    (w.extractLsb' start len).extractLsb' n 8 = w.extractLsb' (start + n) 8 := by
  apply BitVec.eq_of_getLsbD_eq
  intro i hi
  have hlen : n + i < len := by omega
  simp [hi, hlen, Nat.add_assoc]

/-- Settles O4: each byte of a field is the port byte at its place, and the bytes carry the descriptor. -/
theorem portBytesCarryTheDescriptor : Obligations.PortBytesCarryTheDescriptor := by
  refine fun w => ⟨?_, descriptorOfBytes_portBytes w⟩
  simp only [fieldA, fieldB, fieldC, fieldD, fieldL, fieldP, byte_of_field, Nat.reduceAdd, Nat.reduceLeDiff]
  rfl

/-! ### Descriptors written by hand (R80, R82) -/

/-- Settles O5: the descriptors are the encodings of their operations. -/
theorem writtenDescriptorsDecode : Obligations.WrittenDescriptorsDecode :=
  ⟨decode_encode (.setpx 3 10 1), decode_encode (.icon 1 4 5 8 1 0x310), decode_encode (.wstr 1 8 1 2 0x200),
    decode_encode (.openDisplay 1 4 0x400)⟩

end Sys2Proof.Machine
end

section
/-! SUPPORT. The statements on the pixel buffer (40_pixelbuffer.md): clamping, SETPX, FILL and CLEAR. -/

namespace Sys2Proof.Machine

/-! ### Clamping (R10, R11, R111) -/

/-- The last valid index is where everything past it lands. -/
theorem min_last_index {n size : Nat} (h : 1 ≤ size) : min n (size - 1) = if n < size then n else size - 1 := by
  split <;> omega

/-- A negative integer wraps to its distance from 65536. -/
theorem u16_neg_toNat {k : Nat} (h1 : 1 ≤ k) (h2 : k ≤ 65536) : (u16 (-k)).toNat = 65536 - k := by
  simp only [u16, BitVec.toNat_ofInt]
  omega

/-- Settles O12: no axis is longer than 32768, so a coordinate that wrapped from at most that far below zero is past its end. -/
theorem clampGoesToTheLastValidIndex : Obligations.ClampGoesToTheLastValidIndex := by
  intro c x y k
  obtain ⟨hw1, hw⟩ := config_width_bounds c
  obtain ⟨hh8, hh, -⟩ := config_height_bounds c
  refine ⟨?column, ?row, fun hk1 hk => ?wrapped⟩
  case column => rw [clampX_toNat, min_last_index hw1]
  case row => rw [clampY_toNat, min_last_index (by omega)]
  case wrapped =>
    rw [clampX_toNat, clampY_toNat, u16_neg_toNat hk1 (by omega)]
    omega

/-! ### SETPX (R110, R112) -/

/-- SetPixel gives one bit of the pixel's byte the state and leaves the other seven as they were. -/
theorem setPixel_read_bit {c : Config} {m : Memory} (hm : m.wf) (x y : Coord) (on : Bool) {k : Nat} (hk : k < 8) :
    ((setPixel c m x y on).read (pixelByte c x y)).getLsbD k =
      if k = (clampY c y).toNat % 8 then on else (m.read (pixelByte c x y)).getLsbD k := by
  rw [setPixel, memory_read_write_same hm]
  generalize (clampY c y).toNat = row
  cases on with
  | true =>
    rw [if_pos rfl, BitVec.getLsbD_or, bitMask_getLsbD row k hk]
    by_cases hbit : k = row % 8 <;> simp [hbit]
  | false =>
    rw [if_neg Bool.false_ne_true, BitVec.getLsbD_and, BitVec.getLsbD_not, bitMask_getLsbD row k hk]
    by_cases hbit : k = row % 8 <;> simp [hbit, hk]

/-- Drawing points with one pixel state gives it to the pixels they land on, and changes nothing else. -/
theorem draw_plots_drawn {s : State} (hwf : s.fb.wf) (on : Bool) (ps : List Point) :
    ∃ t, draw (plots on ps) s = .next t ∧
      Drawn s t on fun px py => ∃ p ∈ ps, px = (clampX s.cfg p.1).toNat ∧ py = (clampY s.cfg p.2).toNat := by
  refine ⟨_, rfl, rfl, fun px py hx _ => ⟨fun hpainted => ?painted, fun hother => ?untouched⟩, fun a ha => ?outside⟩
  case painted => exact (plotAll_plots_pixel on ps hwf hx).trans (if_pos hpainted)
  case untouched => exact (plotAll_plots_pixel on ps hwf hx).trans (if_neg hother)
  case outside => exact plotAll_read_other _ hwf fun p _ => ((pixelByte_lt ..).trans_le ha).ne'

/-- The pixels that count as painted may be said in any equivalent way. -/
theorem Drawn.congr {s t : State} {on : Bool} {painted painted' : Nat → Nat → Prop} (h : Drawn s t on painted)
    (heq : ∀ px py, painted px py ↔ painted' px py) : Drawn s t on painted' := by
  have : painted = painted' := funext₂ fun px py => propext (heq px py)
  rwa [← this]

/-- Settles O10: SETPX draws one point, which lands on its clamped pixel. -/
theorem setpxSetsTheClampedPixel : Obligations.SetpxSetsTheClampedPixel := by
  refine ⟨fun w hop => by rw [decode, hop]; rfl, fun s x y v hwf => ?_⟩
  obtain ⟨t, ht, hdrawn⟩ := draw_plots_drawn hwf (isOn v) [(x, y)]
  exact ⟨t, ht, hdrawn.congr fun px py => by simp⟩

/-- Settles O11: the one call of SetPixel stores to its pixel's byte, and there to one bit. -/
theorem setpxWritesOneBitOfOneByte : Obligations.SetpxWritesOneBitOfOneByte := by
  refine fun s x y v hwf => ⟨_, rfl, rfl, ?address, fun a ha => ?bytes, fun k hk => ?bits⟩
  case address => rw [pixelByte, byteIndex, clampX_toNat, clampY_toNat]
  case bytes => exact setPixel_read_other hwf ha (isOn v)
  case bits =>
    rw [← clampY_toNat]
    exact setPixel_read_bit hwf x y (isOn v) hk

/-! ### FILL and CLEAR (R113, R114, R117) -/

/-- Settles O14: FillAll writes every byte anew, one of two patterns. -/
theorem fillSetsEveryByte : Obligations.FillSetsEveryByte := by
  refine ⟨fun w hop => by rw [decode, hop]; rfl, fun s v => ⟨_, rfl, rfl, fun a ha => ?_⟩⟩
  calc (fillAll s.cfg (isOn v)).read a = if isOn v then 0xFF else 0x00 := fillAll_read s.cfg (isOn v) ha
    _ = if v = 0 then 0x00 else 0xFF := by by_cases hv : v = 0 <;> simp [isOn, hv]

/-- Settles O15: both are FillAll with the state off. -/
theorem clearIsFillOff : Obligations.ClearIsFillOff :=
  ⟨fun w hop => by rw [decode, hop]; rfl,
    fun s => ⟨rfl, _, rfl, rfl, fun _ ha => (fillAll_read s.cfg false ha).trans (if_neg Bool.false_ne_true)⟩⟩

end Sys2Proof.Machine
end

section
/-! SUPPORT. The statements on the lines and rectangles (41_primitives.md): where points land, the closed form of a line,
LINE, RECT and RECTF. -/

namespace Sys2Proof.Machine

/-! ### Where points land (R11, R111, R139) -/

theorem u16_toNat (a : Int) : (u16 a).toNat = (a % 65536).toNat := by
  simp [u16, BitVec.toNat_ofInt]

theorem u16_toNat_of_inRange {a : Int} (h0 : 0 ≤ a) (h : a < 65536) : (u16 a).toNat = a.toNat := by
  rw [u16_toNat, Int.emod_eq_of_lt h0 h]

@[simp] theorem u16_coord (x : Coord) : u16 x.toNat = x := by
  simp [u16]

theorem clampX_u16 (c : Config) (a : Int) : (clampX c (u16 a)).toNat = landsAt c.width a := by
  rw [clampX_toNat, u16_toNat, landsAt]

theorem clampY_u16 (c : Config) (a : Int) : (clampY c (u16 a)).toNat = landsAt c.height a := by
  rw [clampY_toNat, u16_toNat, landsAt]

/-- An integer on the axis lands where it is. -/
theorem landsAt_of_inRange {size : Nat} {a : Int} (hsize : size ≤ 32768) (h0 : 0 ≤ a) (h : a < size) :
    landsAt size a = a.toNat := by
  rw [landsAt, Int.emod_eq_of_lt h0 (by omega)]
  omega

/-- Some of the points lands on the pixel `(px, py)`. -/
def Lands (c : Config) (ps : List Point) (px py : Nat) : Prop :=
  ∃ p ∈ ps, px = (clampX c p.1).toNat ∧ py = (clampY c p.2).toNat

theorem lands_append (c : Config) (ps qs : List Point) (px py : Nat) :
    Lands c (ps ++ qs) px py ↔ Lands c ps px py ∨ Lands c qs px py := by
  simp only [Lands, List.mem_append, or_and_right, exists_or]

theorem lands_map {α : Type} (c : Config) (l : List α) (f : α → Point) (px py : Nat) :
    Lands c (l.map f) px py ↔ ∃ a ∈ l, px = (clampX c (f a).1).toNat ∧ py = (clampY c (f a).2).toNat := by
  simp only [Lands, List.mem_map, exists_exists_and_eq_and]

theorem lands_flatMap {α : Type} (c : Config) (l : List α) (f : α → List Point) (px py : Nat) :
    Lands c (l.flatMap f) px py ↔ ∃ a ∈ l, Lands c (f a) px py := by
  simp only [Lands, List.mem_flatMap]
  exact ⟨fun ⟨p, ⟨a, ha, hp⟩, hland⟩ => ⟨a, ha, p, hp, hland⟩,
    fun ⟨a, ha, p, hp, hland⟩ => ⟨p, ⟨a, ha, hp⟩, hland⟩⟩

/-- Drawing points with one pixel state gives it to the pixels they land on, however these are said. -/
theorem draw_plots_painted {s : State} (hwf : s.fb.wf) (v : Byte) {ps : List Point} {painted : Nat → Nat → Prop}
    (h : ∀ px py, Lands s.cfg ps px py ↔ painted px py) :
    ∃ t, draw (plots (isOn v) ps) s = .next t ∧ Drawn s t (decide (v ≠ 0)) painted := by
  obtain ⟨t, ht, hdrawn⟩ := draw_plots_drawn hwf (isOn v) ps
  exact ⟨t, ht, hdrawn.congr h⟩

/-! ### The recurrence of a line along its longer axis (R131) -/

/-- The steps along the shorter axis after `k` steps along the longer one: `ceil((k * minor - major div 2) / major)`. -/
def minorSteps (major minor k : Nat) : Nat := (k * minor + (major - 1 - major / 2)) / major

/-- The error of the recurrence after `k` steps along the longer axis. -/
def lineError (major minor k : Nat) : Int := (major / 2 : Nat) - (k * minor : Nat) + (minorSteps major minor k * major : Nat)

theorem minorSteps_zero (major minor : Nat) : minorSteps major minor 0 = 0 := by
  rw [minorSteps, Nat.div_eq_zero_iff]
  omega

theorem minorSteps_minor_zero (major k : Nat) : minorSteps major 0 k = 0 := by
  rw [minorSteps, Nat.div_eq_zero_iff]
  omega

/-- After the whole longer axis the shorter one is done too. -/
theorem minorSteps_major {major minor : Nat} (h : minor ≤ major) : minorSteps major minor major = minor := by
  rcases Nat.eq_zero_or_pos major with rfl | hpos
  · obtain rfl : minor = 0 := by omega
    simp [minorSteps]
  · rw [minorSteps, Nat.mul_add_div hpos, Nat.div_eq_of_lt (by omega), Nat.add_zero]

theorem minorSteps_le {major minor k : Nat} (h : minor ≤ major) (hk : k ≤ major) : minorSteps major minor k ≤ minor :=
  calc minorSteps major minor k ≤ minorSteps major minor major :=
        Nat.div_le_div_right (Nat.add_le_add_right (Nat.mul_le_mul_right _ hk) _)
    _ = minor := minorSteps_major h

theorem lineError_zero (major minor : Nat) : lineError major minor 0 = (major / 2 : Nat) := by
  simp [lineError, minorSteps_zero]

/-- The error stays between 0 and the longer axis. -/
theorem lineError_bounds {major : Nat} (minor k : Nat) (h : 0 < major) :
    0 ≤ lineError major minor k ∧ lineError major minor k < major := by
  have hlow := Nat.div_mul_le_self (k * minor + (major - 1 - major / 2)) major
  have hhigh := Nat.lt_div_mul_add (a := k * minor + (major - 1 - major / 2)) h
  rw [← minorSteps] at hlow hhigh
  rw [lineError]
  omega

/-- The shorter axis makes a step when the error is below it. -/
theorem minorSteps_succ {major minor : Nat} (k : Nat) (hpos : 0 < major) (h : minor ≤ major) :
    minorSteps major minor (k + 1) = minorSteps major minor k + if lineError major minor k < minor then 1 else 0 := by
  obtain ⟨hlow, hhigh⟩ := lineError_bounds minor k hpos
  rw [lineError] at *
  generalize hm : minorSteps major minor k = m at *
  rw [minorSteps, Nat.div_eq_iff hpos]
  split <;> simp only [Nat.add_mul] <;> omega

/-- The error loses the shorter axis at every step, and gains the longer one when the shorter axis makes a step. -/
theorem lineError_succ {major minor : Nat} (k : Nat) (hpos : 0 < major) (h : minor ≤ major) :
    lineError major minor (k + 1) =
      lineError major minor k - minor + if lineError major minor k < minor then (major : Int) else 0 := by
  conv_lhs => rw [lineError, minorSteps_succ k hpos h]
  split <;> simp only [lineError, Nat.add_mul] <;> omega

/-- The loop of a line that is not longer in `y` than in `x` makes a step in `x` at every turn, and plots the `k`-th pixel of
the closed form at turn `k`, to the end. -/
theorem lineLoop_along_x {sx : Int} (hsx : sx ≠ 0) (x0 y0 sy : Int) {dx dy : Nat} (hle : dy ≤ dx) (n k : Nat)
    (hk : k + n = dx) :
    lineLoop (x0 + sx * dx) (y0 + sy * dy) dx dy sx sy (n + 1) (x0 + sx * k) (y0 + sy * minorSteps dx dy k)
        (lineError dx dy k) =
      (List.range' k (n + 1)).map fun (j : Nat) => (u16 (x0 + sx * j), u16 (y0 + sy * minorSteps dx dy j)) := by
  induction n generalizing k with
  | zero =>
    obtain rfl : k = dx := hk
    simp [lineLoop, minorSteps_major hle]
  | succ n ih =>
    have hpos : 0 < dx := by omega
    obtain ⟨hlow, -⟩ := lineError_bounds dy k hpos
    have hx : ¬ x0 + sx * k = x0 + sx * dx := fun heq => by
      have := Int.eq_of_mul_eq_mul_left hsx (Int.add_left_cancel heq)
      omega
    have hmove : lineError dx dy k > -(dx : Int) := by omega
    rw [List.range'_succ, List.map_cons, ← ih (k + 1) (by omega), lineError_succ k hpos hle, minorSteps_succ k hpos hle,
      lineLoop, if_neg fun hend => hx hend.1]
    by_cases hy : lineError dx dy k < dy
    · simp only [hmove, hy, ↓reduceIte]
      push_cast
      simp only [mul_add, mul_one, add_assoc]
    · simp only [hmove, hy, ↓reduceIte]
      push_cast
      simp only [mul_add, mul_one, add_assoc, add_zero]

/-- The recurrence treats the two axes alike, with the sign of the error turned. -/
theorem lineLoop_swap (x1 y1 dx dy sx sy : Int) (n : Nat) (x y err : Int) :
    lineLoop y1 x1 dy dx sy sx n y x (-err) = (lineLoop x1 y1 dx dy sx sy n x y err).map Prod.swap := by
  induction n generalizing x y err with
  | zero => rfl
  | succ n ih =>
    have hyturn : -err > -dy ↔ err < dy := by omega
    have hxturn : -err < dx ↔ err > -dx := by omega
    simp only [lineLoop, hyturn, hxturn, and_comm (a := y = y1), List.map_cons, Prod.swap_prod_mk, apply_ite (List.map _),
      List.map_nil, ← ih]
    congr 3
    split <;> split <;> ring

/-! ### The closed form of a line (R131) -/

/-- How many pixels apart two places of an axis are. -/
def axisDistance (a b : Nat) : Nat := max a b - min a b

/-- The direction of the steps from one place of an axis to another. -/
def axisSign (a b : Nat) : Int := if a < b then 1 else -1

/-- Pixel `k` of the closed form of the line from `(x0, y0)` to `(x1, y1)`. -/
def lineStep (x0 y0 x1 y1 k : Nat) : Int × Int :=
  if axisDistance x0 x1 > axisDistance y0 y1 then
    ((x0 : Int) + axisSign x0 x1 * k,
      (y0 : Int) + axisSign y0 y1 * minorSteps (axisDistance x0 x1) (axisDistance y0 y1) k)
  else
    ((x0 : Int) + axisSign x0 x1 * minorSteps (axisDistance y0 y1) (axisDistance x0 x1) k,
      (y0 : Int) + axisSign y0 y1 * k)

/-- The pixels of the closed form in order. -/
def lineSteps (x0 y0 x1 y1 : Nat) : List (Int × Int) :=
  (List.range (max (axisDistance x0 x1) (axisDistance y0 y1) + 1)).map (lineStep x0 y0 x1 y1)

theorem lineClosedForm_eq (c : Config) (p q : Point) :
    lineClosedForm c p q =
      lineSteps (clampX c p.1).toNat (clampY c p.2).toNat (clampX c q.1).toNat (clampY c q.2).toNat := by
  simp only [clampX_toNat, clampY_toNat]
  rfl

theorem axisSign_ne_zero (a b : Nat) : axisSign a b ≠ 0 := by
  unfold axisSign
  split <;> decide

/-- All steps from one place lead to the other. -/
theorem axisSign_mul_distance (a b : Nat) : (a : Int) + axisSign a b * axisDistance a b = b := by
  unfold axisSign axisDistance
  split <;> omega

/-- Some of the steps from one place to another lead to a place between them. -/
theorem axisStep_between {a b k : Nat} (hk : k ≤ axisDistance a b) :
    (min a b : Nat) ≤ (a : Int) + axisSign a b * k ∧ (a : Int) + axisSign a b * k ≤ (max a b : Nat) := by
  unfold axisDistance at hk
  unfold axisSign
  split <;> omega

/-- Every place between two is reached by some of the steps. -/
theorem exists_axisStep {a b x : Nat} (hlow : min a b ≤ x) (hhigh : x ≤ max a b) :
    ∃ k ≤ axisDistance a b, (a : Int) + axisSign a b * k = x := by
  refine ⟨axisDistance a x, ?_, ?_⟩
  · unfold axisDistance; omega
  · unfold axisSign axisDistance
    split <;> omega

theorem lineStep_zero (x0 y0 x1 y1 : Nat) : lineStep x0 y0 x1 y1 0 = ((x0 : Int), (y0 : Int)) := by
  simp [lineStep, minorSteps_zero]

theorem lineStep_last (x0 y0 x1 y1 : Nat) :
    lineStep x0 y0 x1 y1 (max (axisDistance x0 x1) (axisDistance y0 y1)) = ((x1 : Int), (y1 : Int)) := by
  rw [lineStep]
  split
  case isTrue hlong =>
    rw [max_eq_left hlong.le, minorSteps_major hlong.le, axisSign_mul_distance, axisSign_mul_distance]
  case isFalse hlong =>
    rw [max_eq_right (by omega), minorSteps_major (by omega), axisSign_mul_distance, axisSign_mul_distance]

/-- A pixel of a line is some steps away from its start on either axis. -/
theorem exists_steps_of_mem_lineSteps {x0 y0 x1 y1 : Nat} {r : Int × Int} (h : r ∈ lineSteps x0 y0 x1 y1) :
    ∃ i j : Nat, i ≤ axisDistance x0 x1 ∧ j ≤ axisDistance y0 y1 ∧
      r = ((x0 : Int) + axisSign x0 x1 * i, (y0 : Int) + axisSign y0 y1 * j) := by
  obtain ⟨k, hk, rfl⟩ := List.mem_map.mp h
  rw [List.mem_range] at hk
  rw [lineStep]
  split
  case isTrue hlong => exact ⟨k, _, by omega, minorSteps_le hlong.le (by omega), rfl⟩
  case isFalse hlong => exact ⟨_, k, minorSteps_le (by omega) (by omega), by omega, rfl⟩

/-- The pixels of a line between two pixels of the panel are in range. -/
theorem lineClosedForm_inRange {c : Config} {p q : Point} {r : Int × Int} (h : r ∈ lineClosedForm c p q) :
    0 ≤ r.1 ∧ r.1 < c.width ∧ 0 ≤ r.2 ∧ r.2 < c.height := by
  rw [lineClosedForm_eq] at h
  obtain ⟨i, j, hi, hj, rfl⟩ := exists_steps_of_mem_lineSteps h
  have hx := axisStep_between hi
  have hy := axisStep_between hj
  have := clampX_lt c p.1
  have := clampX_lt c q.1
  have := clampY_lt c p.2
  have := clampY_lt c q.2
  dsimp only
  omega

/-- The recurrence between two places of the panel runs through the pixels of the closed form: along `x` when that axis is the
longer one, and else along `y`, with the axes swapped. -/
theorem lineLoop_eq_lineSteps (x0 y0 x1 y1 : Nat) :
    lineLoop x1 y1 (axisDistance x0 x1) (axisDistance y0 y1) (axisSign x0 x1) (axisSign y0 y1)
        (max (axisDistance x0 x1) (axisDistance y0 y1) + 1) x0 y0
        (if axisDistance x0 x1 > axisDistance y0 y1 then ((axisDistance x0 x1 / 2 : Nat) : Int)
          else -((axisDistance y0 y1 / 2 : Nat) : Int)) =
      (lineSteps x0 y0 x1 y1).map fun r => (u16 r.1, u16 r.2) := by
  have hx := axisSign_mul_distance x0 x1
  have hy := axisSign_mul_distance y0 y1
  simp only [lineSteps, List.map_map, List.range_eq_range']
  by_cases hlong : axisDistance x0 x1 > axisDistance y0 y1
  · have hloop := lineLoop_along_x (axisSign_ne_zero x0 x1) x0 y0 (axisSign y0 y1) hlong.le _ 0 (Nat.zero_add _)
    simp only [hx, hy, lineError_zero, minorSteps_zero, Nat.cast_zero, mul_zero, add_zero] at hloop
    rw [if_pos hlong, max_eq_left hlong.le, hloop]
    refine List.map_congr_left fun k _ => ?_
    rw [Function.comp_apply, lineStep, if_pos hlong]
  · have hle := not_lt.mp hlong
    have hloop := lineLoop_along_x (axisSign_ne_zero y0 y1) y0 x0 (axisSign x0 x1) hle _ 0 (Nat.zero_add _)
    simp only [hx, hy, lineError_zero, minorSteps_zero, Nat.cast_zero, mul_zero, add_zero] at hloop
    rw [if_neg hlong, max_eq_right hle, lineLoop_swap, hloop, List.map_map]
    refine List.map_congr_left fun k _ => ?_
    rw [Function.comp_apply, Function.comp_apply, lineStep, if_neg hlong, Prod.swap_prod_mk]

/-- DrawLine plots the pixels of the closed form, in order. -/
theorem linePoints_eq_closedForm (c : Config) (p q : Point) :
    linePoints c p q = (lineClosedForm c p q).map fun r => (u16 r.1, u16 r.2) := by
  rw [lineClosedForm_eq, ← lineLoop_eq_lineSteps]
  simp only [linePoints, sanitize]
  have habs (a b : Nat) : ((b : Int) - a).natAbs = axisDistance a b := by unfold axisDistance; omega
  simp only [habs, axisSign, Nat.cast_lt]

/-- Settles O16: the pixels of the closed form are in range, so that their coordinates are not reduced. -/
theorem lineLoopIsTheClosedForm : Obligations.LineLoopIsTheClosedForm := by
  intro c p q
  rw [linePoints_eq_closedForm, List.map_map]
  conv_rhs => rw [← List.map_id (lineClosedForm c p q)]
  refine List.map_congr_left fun r hr => ?_
  obtain ⟨hx0, hx, hy0, hy⟩ := lineClosedForm_inRange hr
  obtain ⟨-, hw⟩ := config_width_bounds c
  obtain ⟨-, hh, -⟩ := config_height_bounds c
  rw [Function.comp_apply, u16_toNat_of_inRange hx0 (by omega), u16_toNat_of_inRange hy0 (by omega),
    Int.toNat_of_nonneg hx0, Int.toNat_of_nonneg hy0, id]

/-- Settles O17, from the closed form: step 0 is the start, and the last step the end. -/
theorem lineRunsFromEndToEnd : Obligations.LineRunsFromEndToEnd := by
  intro c p q
  rw [linePoints_eq_closedForm]
  refine ⟨?length, ?first, ?last, fun r hr => ?range⟩
  case length =>
    rw [lineClosedForm_eq, lineSteps, List.length_map, List.length_map, List.length_range]
    simp only [sanitize, axisDistance]
    omega
  case first =>
    rw [lineClosedForm_eq, lineSteps, List.range_succ_eq_map, List.map_cons, List.map_cons, List.head?_cons, lineStep_zero,
      u16_coord, u16_coord]
  case last =>
    rw [lineClosedForm_eq, lineSteps, List.range_succ, List.map_append, List.map_append, List.map_singleton,
      List.map_singleton, List.getLast?_concat, lineStep_last, u16_coord, u16_coord]
  case range =>
    obtain ⟨step, hstep, rfl⟩ := List.mem_map.mp hr
    obtain ⟨hx0, hx, hy0, hy⟩ := lineClosedForm_inRange hstep
    obtain ⟨-, hw⟩ := config_width_bounds c
    obtain ⟨-, hh, -⟩ := config_height_bounds c
    rw [u16_toNat_of_inRange hx0 (by omega), u16_toNat_of_inRange hy0 (by omega)]
    omega

/-! ### LINE (R132) -/

/-- The points of a line land on the pixels of the closed form. -/
theorem lands_linePoints (c : Config) (p q : Point) (px py : Nat) :
    Lands c (linePoints c p q) px py ↔ ((px : Int), (py : Int)) ∈ lineClosedForm c p q := by
  obtain ⟨-, hw⟩ := config_width_bounds c
  obtain ⟨-, hh, -⟩ := config_height_bounds c
  have hplace : ∀ r ∈ lineClosedForm c p q,
      ((clampX c (u16 r.1)).toNat : Int) = r.1 ∧ ((clampY c (u16 r.2)).toNat : Int) = r.2 := fun r hr => by
    obtain ⟨hx0, hx, hy0, hy⟩ := lineClosedForm_inRange hr
    rw [clampX_u16, clampY_u16, landsAt_of_inRange hw hx0 hx, landsAt_of_inRange hh hy0 hy]
    exact ⟨Int.toNat_of_nonneg hx0, Int.toNat_of_nonneg hy0⟩
  rw [linePoints_eq_closedForm]
  constructor
  · rintro ⟨_, hp, rfl, rfl⟩
    obtain ⟨r, hr, rfl⟩ := List.mem_map.mp hp
    obtain ⟨hx, hy⟩ := hplace r hr
    dsimp only
    rwa [hx, hy]
  · intro hr
    obtain ⟨hx, hy⟩ := hplace _ hr
    exact ⟨_, List.mem_map_of_mem hr, Int.ofNat.inj hx.symm, Int.ofNat.inj hy.symm⟩

/-- Settles O18: LINE draws the points of one DrawLine. -/
theorem lineDrawsTheBresenhamLine : Obligations.LineDrawsTheBresenhamLine :=
  ⟨fun w hop => by rw [decode, hop]; rfl,
    fun s x0 y0 x1 y1 v hwf => draw_plots_painted hwf v (lands_linePoints s.cfg (x0, y0) (x1, y1))⟩

/-! ### Lines within one row or column (R131) -/

@[simp] theorem axisDistance_self (a : Nat) : axisDistance a a = 0 := by
  simp [axisDistance]

theorem lineStep_row {x0 x1 k : Nat} (y : Nat) (hk : k ≤ axisDistance x0 x1) :
    lineStep x0 y x1 y k = ((x0 : Int) + axisSign x0 x1 * k, (y : Int)) := by
  rw [lineStep, axisDistance_self]
  split
  case isTrue => simp [minorSteps_minor_zero]
  case isFalse hshort =>
    obtain rfl : k = 0 := by omega
    rw [Nat.eq_zero_of_not_pos hshort]
    simp [minorSteps_zero]

theorem lineStep_column (x y0 y1 k : Nat) :
    lineStep x y0 x y1 k = ((x : Int), (y0 : Int) + axisSign y0 y1 * k) := by
  simp [lineStep, minorSteps_minor_zero]

theorem mem_lineSteps_row (x0 x1 y px py : Nat) :
    ((px : Int), (py : Int)) ∈ lineSteps x0 y x1 y ↔ py = y ∧ min x0 x1 ≤ px ∧ px ≤ max x0 x1 := by
  simp only [lineSteps, List.mem_map, List.mem_range, axisDistance_self, Nat.max_zero, Nat.lt_succ_iff]
  constructor
  · rintro ⟨k, hk, heq⟩
    rw [lineStep_row y hk, Prod.mk.injEq] at heq
    have := axisStep_between hk
    omega
  · rintro ⟨rfl, hlow, hhigh⟩
    obtain ⟨k, hk, heq⟩ := exists_axisStep hlow hhigh
    exact ⟨k, hk, by rw [lineStep_row py hk, heq]⟩

theorem mem_lineSteps_column (x y0 y1 px py : Nat) :
    ((px : Int), (py : Int)) ∈ lineSteps x y0 x y1 ↔ px = x ∧ min y0 y1 ≤ py ∧ py ≤ max y0 y1 := by
  simp only [lineSteps, List.mem_map, List.mem_range, axisDistance_self, Nat.zero_max, Nat.lt_succ_iff]
  constructor
  · rintro ⟨k, hk, heq⟩
    rw [lineStep_column, Prod.mk.injEq] at heq
    have := axisStep_between hk
    omega
  · rintro ⟨rfl, hlow, hhigh⟩
    obtain ⟨k, hk, heq⟩ := exists_axisStep hlow hhigh
    exact ⟨k, hk, by rw [lineStep_column, heq]⟩

/-- A line within one row is the inclusive span between its clamped ends, in either direction. -/
theorem lands_row (c : Config) (x0 x1 y : Coord) (px py : Nat) :
    Lands c (linePoints c (x0, y) (x1, y)) px py ↔
      py = (clampY c y).toNat ∧ min (clampX c x0).toNat (clampX c x1).toNat ≤ px ∧
        px ≤ max (clampX c x0).toNat (clampX c x1).toNat := by
  rw [lands_linePoints, lineClosedForm_eq, mem_lineSteps_row]

/-- So is a line within one column. -/
theorem lands_column (c : Config) (x y0 y1 : Coord) (px py : Nat) :
    Lands c (linePoints c (x, y0) (x, y1)) px py ↔
      px = (clampX c x).toNat ∧ min (clampY c y0).toNat (clampY c y1).toNat ≤ py ∧
        py ≤ max (clampY c y0).toNat (clampY c y1).toNat := by
  rw [lands_linePoints, lineClosedForm_eq, mem_lineSteps_column]

/-! ### RECT and RECTF (R133, R134) -/

@[simp] theorem clampX_clampX (c : Config) (x : Coord) : clampX c (clampX c x) = clampX c x :=
  BitVec.eq_of_toNat_eq (by simp)

@[simp] theorem clampY_clampY (c : Config) (y : Coord) : clampY c (clampY c y) = clampY c y :=
  BitVec.eq_of_toNat_eq (by simp)

/-- The four edges of RECT: two in the rows and two in the columns of the corners. -/
theorem lands_rectPoints (c : Config) (p q : Point) (px py : Nat) :
    Lands c (rectPoints c p q) px py ↔
      (min (clampX c p.1).toNat (clampX c q.1).toNat ≤ px ∧ px ≤ max (clampX c p.1).toNat (clampX c q.1).toNat ∧
        (py = (clampY c p.2).toNat ∨ py = (clampY c q.2).toNat)) ∨
      (min (clampY c p.2).toNat (clampY c q.2).toNat ≤ py ∧ py ≤ max (clampY c p.2).toNat (clampY c q.2).toNat ∧
        (px = (clampX c p.1).toNat ∨ px = (clampX c q.1).toNat)) := by
  simp only [rectPoints, sanitize, lands_append, lands_row, lands_column, clampX_clampX, clampY_clampY]
  omega

/-- Settles O19: RECT draws the points of its four edges. -/
theorem rectDrawsTheOutline : Obligations.RectDrawsTheOutline := by
  refine ⟨fun w hop => by rw [decode, hop]; rfl, fun s xa ya xb yb v hwf => draw_plots_painted hwf v fun px py => ?_⟩
  simp only [← clampX_toNat, ← clampY_toNat]
  exact lands_rectPoints s.cfg (xa, ya) (xb, yb) px py

theorem clampX_ofNat {c : Config} {n : Nat} (h : n < c.width) : (clampX c (BitVec.ofNat 16 n)).toNat = n := by
  obtain ⟨-, hw⟩ := config_width_bounds c
  rw [clampX_toNat, BitVec.toNat_ofNat]
  omega

theorem clampY_ofNat {c : Config} {n : Nat} (h : n < c.height) : (clampY c (BitVec.ofNat 16 n)).toNat = n := by
  obtain ⟨-, hh, -⟩ := config_height_bounds c
  rw [clampY_toNat, BitVec.toNat_ofNat]
  omega

/-- Between two places of an axis, some coordinate is clamped to the place `n` when `n` is one of them. -/
theorem exists_clamped {lo hi size : Nat} (hsize : size ≤ 32768) (h : hi < size) (n : Nat) :
    (∃ x ∈ coordRange lo hi, n = min x.toNat (size - 1)) ↔ lo ≤ n ∧ n ≤ hi := by
  simp only [mem_coordRange (show hi < 65536 by omega)]
  constructor
  · rintro ⟨x, hx, rfl⟩
    omega
  · intro hn
    have hcoord : (BitVec.ofNat 16 n).toNat = n := by rw [BitVec.toNat_ofNat]; omega
    exact ⟨BitVec.ofNat 16 n, by rw [hcoord]; omega, by rw [hcoord]; omega⟩

theorem exists_column {c : Config} {lo hi : Nat} (h : hi < c.width) (px : Nat) :
    (∃ x ∈ coordRange lo hi, px = (clampX c x).toNat) ↔ lo ≤ px ∧ px ≤ hi := by
  simpa only [clampX_toNat] using exists_clamped (config_width_bounds c).2 h px

theorem exists_row {c : Config} {lo hi : Nat} (h : hi < c.height) (py : Nat) :
    (∃ y ∈ coordRange lo hi, py = (clampY c y).toNat) ↔ lo ≤ py ∧ py ≤ hi := by
  simpa only [clampY_toNat] using exists_clamped (config_height_bounds c).2.1 h py

/-- The columns or the rows of RECTF, whichever it sweeps, cover the bounding box. -/
theorem lands_rectfPoints (c : Config) (p q : Point) (px py : Nat) :
    Lands c (rectfPoints c p q) px py ↔
      min (clampX c p.1).toNat (clampX c q.1).toNat ≤ px ∧ px ≤ max (clampX c p.1).toNat (clampX c q.1).toNat ∧
      min (clampY c p.2).toNat (clampY c q.2).toNat ≤ py ∧ py ≤ max (clampY c p.2).toNat (clampY c q.2).toNat := by
  have hx := max_lt (clampX_lt c p.1) (clampX_lt c q.1)
  have hy := max_lt (clampY_lt c p.2) (clampY_lt c q.2)
  have hxle := min_le_max (a := (clampX c p.1).toNat) (b := (clampX c q.1).toNat)
  have hyle := min_le_max (a := (clampY c p.2).toNat) (b := (clampY c q.2).toNat)
  simp only [rectfPoints]
  split
  case isTrue =>
    simp only [sanitize, lands_flatMap, lands_column, clampY_ofNat hy, clampY_ofNat (hyle.trans_lt hy), min_eq_left hyle,
      max_eq_right hyle, ← and_assoc, exists_and_right, exists_column hx]
  case isFalse =>
    simp only [sanitize, lands_flatMap, lands_row, clampX_ofNat hx, clampX_ofNat (hxle.trans_lt hx), min_eq_left hxle,
      max_eq_right hxle, ← and_assoc, exists_and_right, exists_row hy]
    omega

/-- Settles O20: RECTF draws the points of its columns or its rows. -/
theorem rectfFillsTheBoundingBox : Obligations.RectfFillsTheBoundingBox := by
  refine ⟨fun w hop => by rw [decode, hop]; rfl, fun s xa ya xb yb v hwf => draw_plots_painted hwf v fun px py => ?_⟩
  simp only [← clampX_toNat, ← clampY_toNat]
  exact lands_rectfPoints s.cfg (xa, ya) (xb, yb) px py

end Sys2Proof.Machine
end

section
/-! SUPPORT. The statements on the circles (41_primitives.md): the closed form of the circle stepper, CIRC and CIRCF. -/

namespace Sys2Proof.Machine

/-! ### The circle stepper (R135) -/

/-- The stepper at the pair `(x, y)`, where its error is `x^2 + y^2 - r^2`, with `fuel` emissions to go. -/
def circleFrom (r : Int) (fuel : Nat) (x y : Int) : List (Int × Int) :=
  circleLoop r fuel x y (2 * (r - x) - 1) (2 * y + 1) (x * x + y * y - r * r)

/-- The `x` the stepper moves to from the pair `(x, y)`: one less when the pixel above lies outside the circle. -/
def inwardX (r x y : Int) : Int := if x * x + (y + 1) * (y + 1) > r * r then x - 1 else x

theorem circleLoop_start (r fuel : Nat) :
    circleLoop r fuel (r - 1) 0 1 1 (1 - 2 * r) = circleFrom r fuel (r - 1) 0 := by
  unfold circleFrom
  congr 1 <;> ring

theorem circleSteps_eq (r : Nat) : circleSteps r = circleFrom r r (r - 1) 0 := circleLoop_start r r

/-- The stepper ends when the pair has passed the diagonal. -/
theorem circleFrom_of_lt {r : Int} (fuel : Nat) {x y : Int} (h : x < y) : circleFrom r fuel x y = [] := by
  cases fuel with
  | zero => rfl
  | succ n => rw [circleFrom, circleLoop, if_neg (by omega)]

/-- Until then, inside the circle, it emits the pair, steps up, and steps inward if it left the circle. -/
theorem circleFrom_succ {r : Int} (fuel : Nat) {x y : Int} (hdiag : y ≤ x) (hin : x * x + y * y ≤ r * r) :
    circleFrom r (fuel + 1) x y = (x, y) :: circleFrom r fuel (inwardX r x y) (y + 1) := by
  have herr : x * x + y * y - r * r ≤ 0 := by omega
  have hup : x * x + y * y - r * r + (2 * y + 1) = x * x + (y + 1) * (y + 1) - r * r := by ring
  have hout : x * x + (y + 1) * (y + 1) - r * r > 0 ↔ x * x + (y + 1) * (y + 1) > r * r := by omega
  rw [circleFrom, circleLoop, if_pos hdiag]
  simp only [herr, ↓reduceIte, hup, hout]
  unfold circleFrom inwardX
  split
  · congr 2 <;> ring
  · congr 2; ring

/-- The pairs at which the stepper stands: `x` is the largest one in the circle, or the start, one less than that. -/
structure OnTrack (r x y : Int) : Prop where
  inside : y ≤ x → x * x + y * y ≤ r * r
  outside : r * r < (x + 1) * (x + 1) + y * y ∨ y = 0 ∧ x + 1 = r
  low : 0 ≤ y
  left : 0 ≤ x + 1

theorem onTrack_start {r : Int} (h : 0 < r) : OnTrack r (r - 1) 0 where
  inside _ := by nlinarith
  outside := .inr ⟨rfl, by ring⟩
  low := le_rfl
  left := by omega

theorem inwardX_le (r x y : Int) : inwardX r x y ≤ x := by
  unfold inwardX
  split <;> omega

/-- After a step the new `x` is the largest one in the circle. -/
theorem OnTrack.maximal {r x y : Int} (h : OnTrack r x y) :
    r * r < (inwardX r x y + 1) * (inwardX r x y + 1) + (y + 1) * (y + 1) := by
  obtain ⟨-, hout, hlow, -⟩ := h
  unfold inwardX
  split
  · rw [sub_add_cancel]; omega
  · obtain hout | ⟨rfl, rfl⟩ := hout
    · nlinarith
    · nlinarith

theorem OnTrack.step {r x y : Int} (h : OnTrack r x y) (hdiag : y ≤ x) : OnTrack r (inwardX r x y) (y + 1) where
  outside := .inl h.maximal
  low := by have := h.low; omega
  left := by
    have := h.low
    unfold inwardX
    split <;> omega
  inside hnext := by
    have hin := h.inside hdiag
    unfold inwardX at *
    split at hnext
    case isTrue hout => rw [if_pos hout]; nlinarith
    case isFalse hout => rw [if_neg hout]; omega

/-- A pair of the circle: the largest `x` in it for a `y` above the axis, up to the diagonal. -/
def CirclePair (r x y : Int) : Prop :=
  1 ≤ y ∧ y ≤ x ∧ x * x + y * y ≤ r * r ∧ r * r < (x + 1) * (x + 1) + y * y

/-- Off the axis the only pair of the circle in the stepper's row is the one it stands at. -/
theorem OnTrack.circlePair_iff {r x y : Int} (h : OnTrack r x y) (hy : 1 ≤ y) (a : Int) :
    CirclePair r a y ↔ y ≤ x ∧ a = x := by
  obtain ⟨hin, hout, -, hleft⟩ := h
  replace hout : r * r < (x + 1) * (x + 1) + y * y := hout.resolve_right (by omega)
  constructor
  · rintro ⟨-, hya, hain, haout⟩
    have hax : a ≤ x := by
      by_contra! hlt
      have := mul_self_le_mul_self hleft (Int.add_one_le_of_lt hlt)
      omega
    have hxa : x ≤ a := by
      by_contra! hlt
      have := mul_self_le_mul_self (show 0 ≤ a + 1 by omega) (Int.add_one_le_of_lt hlt)
      have := hin (hya.trans hax)
      omega
    exact ⟨hya.trans hax, le_antisymm hax hxa⟩
  · rintro ⟨hdiag, rfl⟩
    exact ⟨hy, hdiag, hin hdiag, hout⟩

/-- The pairs of the circle in the rows above lie no further right. -/
theorem OnTrack.right_of_pairs_above {r x y : Int} (h : OnTrack r x y) {a b : Int} (hb : y < b) (hab : CirclePair r a b) :
    a ≤ x := by
  obtain ⟨-, hout, hlow, hleft⟩ := h
  obtain ⟨-, -, hin, -⟩ := hab
  by_contra! hlt
  have hsqx := mul_self_le_mul_self hleft (Int.add_one_le_of_lt hlt)
  have hsqy := mul_self_lt_mul_self hlow hb
  obtain hout | ⟨rfl, rfl⟩ := hout <;> omega

/-- Once the stepper has passed the diagonal, no pair of the circle is left. -/
theorem mem_circleFrom_past {r : Int} (fuel : Nat) {x y : Int} (h : OnTrack r x y) (hpast : x < y) (a b : Int) :
    (a, b) ∈ circleFrom r fuel x y ↔ y ≤ x ∧ a = x ∧ b = y ∨ y < b ∧ CirclePair r a b := by
  rw [circleFrom_of_lt fuel hpast]
  refine iff_of_false List.not_mem_nil ?_
  rintro (⟨hdiag, -⟩ | ⟨hb, hab⟩)
  · omega
  · have hax := h.right_of_pairs_above hb hab
    obtain ⟨-, hba, -⟩ := hab
    omega

/-- From a pair on track, with emissions enough, the stepper emits that pair and then every pair of the circle above it. -/
theorem mem_circleFrom {r : Int} (fuel : Nat) {x y : Int} (h : OnTrack r x y) (hx : x < r) (hfuel : r ≤ y + fuel)
    (a b : Int) :
    (a, b) ∈ circleFrom r fuel x y ↔ y ≤ x ∧ a = x ∧ b = y ∨ y < b ∧ CirclePair r a b := by
  induction fuel generalizing x y with
  | zero => exact mem_circleFrom_past 0 h (by push_cast at hfuel; omega) a b
  | succ n ih =>
    by_cases hdiag : y ≤ x
    · have hnext := h.step hdiag
      have hrow : b = y + 1 → (CirclePair r a b ↔ y + 1 ≤ inwardX r x y ∧ a = inwardX r x y) := by
        rintro rfl
        exact hnext.circlePair_iff (by have := h.low; omega) a
      have habove : y < b ↔ b = y + 1 ∨ y + 1 < b := by omega
      rw [circleFrom_succ n hdiag (h.inside hdiag), List.mem_cons, Prod.mk.injEq,
        ih hnext ((inwardX_le r x y).trans_lt hx) (by push_cast at hfuel; omega), and_iff_right hdiag, habove,
        or_and_right, and_congr_right hrow, ← and_assoc, and_comm (b := b = y + 1)]
    · exact mem_circleFrom_past (n + 1) h (by omega) a b

/-- The pairs come with `y` counting up. -/
theorem circleFrom_getElem {r : Int} (fuel : Nat) {x y : Int} (h : OnTrack r x y) {k : Nat} {p : Int × Int}
    (hp : (circleFrom r fuel x y)[k]? = some p) : p.2 = y + k := by
  induction fuel generalizing x y k with
  | zero => cases hp
  | succ n ih =>
    by_cases hdiag : y ≤ x
    · rw [circleFrom_succ n hdiag (h.inside hdiag)] at hp
      cases k with
      | zero => cases hp; simp
      | succ k => rw [ih (h.step hdiag) hp]; push_cast; ring
    · rw [circleFrom_of_lt _ (by omega)] at hp
      cases hp

theorem circleFrom_length {r : Int} (fuel : Nat) {x y : Int} (h : OnTrack r x y) :
    (circleFrom r fuel x y).length ≤ fuel := by
  induction fuel generalizing x y with
  | zero => exact le_rfl
  | succ n ih =>
    by_cases hdiag : y ≤ x
    · rw [circleFrom_succ n hdiag (h.inside hdiag), List.length_cons]
      exact Nat.succ_le_succ (ih (h.step hdiag))
    · rw [circleFrom_of_lt _ (by omega)]
      exact Nat.zero_le _

/-- Emissions enough are enough: any more change nothing. -/
theorem circleFrom_add {r : Int} (fuel extra : Nat) {x y : Int} (h : OnTrack r x y) (hx : x < r) (hfuel : r ≤ y + fuel) :
    circleFrom r (fuel + extra) x y = circleFrom r fuel x y := by
  induction fuel generalizing x y with
  | zero =>
    have hpassed : x < y := by push_cast at hfuel; omega
    rw [circleFrom_of_lt _ hpassed, circleFrom_of_lt _ hpassed]
  | succ n ih =>
    by_cases hdiag : y ≤ x
    · have hin := h.inside hdiag
      rw [Nat.add_right_comm, circleFrom_succ _ hdiag hin, circleFrom_succ _ hdiag hin,
        ih (h.step hdiag) ((inwardX_le r x y).trans_lt hx) (by push_cast at hfuel; omega)]
    · rw [circleFrom_of_lt _ (by omega), circleFrom_of_lt _ (by omega)]

/-- The pairs of radius `r`: the start, and every pair of the circle. -/
theorem mem_circleSteps (r : Nat) (x y : Int) :
    (x, y) ∈ circleSteps r ↔ 0 < r ∧ ((x = r - 1 ∧ y = 0) ∨ CirclePair r x y) := by
  rw [circleSteps_eq]
  rcases Nat.eq_zero_or_pos r with rfl | hpos
  · rw [circleFrom_of_lt 0 (by decide)]
    simp
  · have hstart : (0 : Int) ≤ r - 1 := by omega
    have hrow : 0 < y ∧ CirclePair r x y ↔ CirclePair r x y := and_iff_right_of_imp fun h => h.1
    rw [mem_circleFrom r (onTrack_start (by omega)) (by omega) (by omega), hrow]
    tauto

/-- Settles O21: the stepper stays on the circle's largest `x`, and every step goes up by one. -/
theorem circleStepperFollowsTheCircle : Obligations.CircleStepperFollowsTheCircle := by
  intro r
  rcases Nat.eq_zero_or_pos r with rfl | hpos
  · exact ⟨mem_circleSteps 0, fun k p hp => (by cases hp), le_rfl⟩
  · have hstart := onTrack_start (r := r) (by omega)
    refine ⟨mem_circleSteps r, fun k p hp => ?_, ?_⟩
    · rw [circleSteps_eq] at hp
      rw [circleFrom_getElem r hstart hp, zero_add]
    · rw [circleSteps_eq]
      exact circleFrom_length r hstart

/-- Settles O22: after `r` rows the stepper has passed the diagonal, since it starts left of `r`. -/
theorem circleStepperEndsByItself : Obligations.CircleStepperEndsByItself := by
  intro r extra
  rw [circleLoop_start, circleSteps_eq]
  rcases Nat.eq_zero_or_pos r with rfl | hpos
  · rw [circleFrom_of_lt _ (by decide), circleFrom_of_lt _ (by decide)]
  · exact circleFrom_add r extra (onTrack_start (by omega)) (by omega) (by omega)

/-- Every pair lies between the axis and the diagonal, inside the radius. -/
theorem circleSteps_bounds {r : Nat} {x y : Int} (h : (x, y) ∈ circleSteps r) : 0 ≤ y ∧ y ≤ x ∧ x < r := by
  obtain ⟨hr, ⟨rfl, rfl⟩ | ⟨hy, hyx, hin, -⟩⟩ := (mem_circleSteps r x y).mp h
  · omega
  · exact ⟨by omega, hyx, by nlinarith⟩

/-! ### CIRC (R136) -/

/-- `(a, b)` is one of the eight images of `(x, y)` under the symmetries of the square. -/
def SymmetricTo (x y a b : Int) : Prop := (|a| = x ∧ |b| = y) ∨ (|a| = y ∧ |b| = x)

/-- The eight images in the order of R136. -/
def symmetricImages (x y : Int) : List (Int × Int) :=
  [(x, y), (y, x), (-y, x), (-x, y), (-x, -y), (-y, -x), (y, -x), (x, -y)]

theorem circlePoints_eq (x0 y0 x y : Int) :
    circlePoints x0 y0 (x, y) = (symmetricImages x y).map fun o => (u16 (x0 + o.1), u16 (y0 + o.2)) := by
  simp only [circlePoints, symmetricImages, List.map_cons, List.map_nil, sub_eq_add_neg]

theorem mem_symmetricImages {x y : Int} (hx : 0 ≤ x) (hy : 0 ≤ y) (a b : Int) :
    (a, b) ∈ symmetricImages x y ↔ SymmetricTo x y a b := by
  simp only [symmetricImages, List.mem_cons, List.not_mem_nil, Prod.mk.injEq, SymmetricTo, abs_eq hx, abs_eq hy, or_false,
    or_and_right, and_or_left]
  exact Iff.of_eq (by ac_rfl)

theorem lands_circlePoints (c : Config) (x0 y0 : Int) {x y : Int} (hx : 0 ≤ x) (hy : 0 ≤ y) (px py : Nat) :
    Lands c (circlePoints x0 y0 (x, y)) px py ↔
      ∃ a b, SymmetricTo x y a b ∧ px = landsAt c.width (x0 + a) ∧ py = landsAt c.height (y0 + b) := by
  simp only [circlePoints_eq, lands_map, clampX_u16, clampY_u16, Prod.exists, mem_symmetricImages hx hy]

/-- `(a, b)` is a point of the outline of radius `r` about the origin. -/
def OnOutline (r : Nat) (a b : Int) : Prop := ∃ x y, (x, y) ∈ circleSteps r ∧ SymmetricTo x y a b

theorem lands_circPoints (c : Config) (x0 y0 r : Coord) (px py : Nat) :
    Lands c (circPoints x0 y0 r) px py ↔
      ∃ a b, OnOutline r.toNat a b ∧ px = landsAt c.width (x0.toNat + a) ∧ py = landsAt c.height (y0.toNat + b) := by
  simp only [circPoints, lands_flatMap, Prod.exists, OnOutline]
  constructor
  · rintro ⟨x, y, hxy, hland⟩
    obtain ⟨hy, hyx, -⟩ := circleSteps_bounds hxy
    obtain ⟨a, b, hsym, hpx, hpy⟩ := (lands_circlePoints c _ _ (hy.trans hyx) hy px py).mp hland
    exact ⟨a, b, ⟨x, y, hxy, hsym⟩, hpx, hpy⟩
  · rintro ⟨a, b, ⟨x, y, hxy, hsym⟩, hpx, hpy⟩
    obtain ⟨hy, hyx, -⟩ := circleSteps_bounds hxy
    exact ⟨x, y, hxy, (lands_circlePoints c _ _ (hy.trans hyx) hy px py).mpr ⟨a, b, hsym, hpx, hpy⟩⟩

/-- Settles O23: CIRC draws the eight points of each pair. -/
theorem circDrawsTheSymmetricPoints : Obligations.CircDrawsTheSymmetricPoints := by
  refine ⟨fun w hop => by rw [decode, hop]; rfl, fun s x0 y0 r v hwf => draw_plots_painted hwf v fun px py => ?_⟩
  rw [lands_circPoints]
  exact ⟨fun ⟨a, b, ⟨x, y, hxy, hsym⟩, hland⟩ => ⟨x, y, a, b, hxy, hsym, hland⟩,
    fun ⟨x, y, a, b, hxy, hsym, hland⟩ => ⟨a, b, ⟨x, y, hxy, hsym⟩, hland⟩⟩

/-! ### The quarter turn (R136) -/

theorem onOutline_turn (r : Nat) (a b : Int) : OnOutline r (-b) a ↔ OnOutline r a b := by
  simp only [OnOutline, SymmetricTo, abs_neg]
  exact exists₂_congr fun x y => and_congr_right fun _ => by tauto

theorem OnOutline.bounds {r : Nat} {a b : Int} (h : OnOutline r a b) : |a| < r ∧ |b| < r := by
  obtain ⟨x, y, hxy, hsym⟩ := h
  obtain ⟨hy, hyx, hxr⟩ := circleSteps_bounds hxy
  obtain ⟨ha, hb⟩ | ⟨ha, hb⟩ := hsym <;> omega

/-- On an axis that a circle about `centre` does not leave, its points land where they are. -/
theorem landsAt_of_inside {size centre r : Nat} (hsize : size ≤ 32768) (hlow : r ≤ centre + 1) (hhigh : centre + r ≤ size)
    {a : Int} (ha : |a| < r) : (landsAt size (centre + a) : Int) = centre + a := by
  obtain ⟨hleft, hright⟩ := abs_lt.mp ha
  rw [landsAt_of_inRange hsize (by omega) (by omega)]
  omega

/-- What a drawing operation with one pixel state that answers has drawn. -/
theorem drawn_of_draw {s t : State} (hwf : s.fb.wf) {v : Byte} (hv : v ≠ 0) {ps : List Point}
    (h : draw (plots (isOn v) ps) s = .next t) : Drawn s t true (Lands s.cfg ps) := by
  obtain ⟨t', ht', hdrawn⟩ := draw_plots_painted hwf v fun px py => Iff.rfl (a := Lands s.cfg ps px py)
  obtain rfl : t = t' := by rw [h] at ht'; cases ht'; rfl
  rwa [decide_eq_true hv] at hdrawn

/-- After drawing with the state on, a pixel is on when it was painted or had been on. -/
theorem Drawn.pixel_iff {s t : State} {painted : Nat → Nat → Prop} (h : Drawn s t true painted) {px py : Nat}
    (hx : px < s.cfg.width) (hy : py < s.cfg.height) :
    pixel s.cfg t.fb px py = true ↔ painted px py ∨ pixel s.cfg s.fb px py = true := by
  obtain ⟨-, hpixels, -⟩ := h
  obtain ⟨hpainted, hother⟩ := hpixels px py hx hy
  by_cases hp : painted px py
  · simp [hp, hpainted hp]
  · simp [hp, hother hp]

theorem wf_nil : Memory.wf [] := by simp [Memory.wf]

@[simp] theorem pixel_nil (c : Config) (px py : Nat) : pixel c [] px py = false := by
  simp [pixel, unlistedByte]

/-- Inside the panel, on a blank framebuffer, the pixels of a circle are those of the outline about its centre. -/
theorem circ_pixel_iff {s t : State} {x0 y0 r : Coord} {v : Byte} (hblank : s.fb = []) (hv : v ≠ 0)
    (hxlow : r.toNat ≤ x0.toNat + 1) (hxhigh : x0.toNat + r.toNat ≤ s.cfg.width) (hylow : r.toNat ≤ y0.toNat + 1)
    (hyhigh : y0.toNat + r.toNat ≤ s.cfg.height) (h : exec (.circ x0 y0 r v) s = .next t) {a b : Int}
    (ha : |a| < r.toNat) (hb : |b| < r.toNat) :
    pixel s.cfg t.fb ((x0.toNat : Int) + a).toNat ((y0.toNat : Int) + b).toNat = true ↔ OnOutline r.toNat a b := by
  obtain ⟨-, hw⟩ := config_width_bounds s.cfg
  obtain ⟨-, hh, -⟩ := config_height_bounds s.cfg
  have hdrawn : Drawn s t true (Lands s.cfg (circPoints x0 y0 r)) := drawn_of_draw (hblank ▸ wf_nil) hv h
  have hlandx {a : Int} (ha : |a| < r.toNat) := landsAt_of_inside hw hxlow hxhigh ha
  have hlandy {b : Int} (hb : |b| < r.toNat) := landsAt_of_inside hh hylow hyhigh hb
  have hax := abs_lt.mp ha
  have hby := abs_lt.mp hb
  rw [hdrawn.pixel_iff (by omega) (by omega), hblank, pixel_nil, lands_circPoints]
  simp only [Bool.false_eq_true, or_false]
  constructor
  · rintro ⟨a', b', hon, hpx, hpy⟩
    obtain ⟨ha', hb'⟩ := hon.bounds
    have := hlandx ha'
    have := hlandy hb'
    obtain rfl : a' = a := by omega
    obtain rfl : b' = b := by omega
    exact hon
  · intro hon
    have := hlandx ha
    have := hlandy hb
    exact ⟨a, b, hon, by omega, by omega⟩

/-- Settles O24: the outline about the origin is the same after a quarter turn. -/
theorem circleOutlineIsRotationInvariant : Obligations.CircleOutlineIsRotationInvariant := by
  intro s t x0 y0 r v hblank hv hxlow hxhigh hylow hyhigh h a b ha hb
  have hpixel {a b : Int} := circ_pixel_iff (a := a) (b := b) hblank hv hxlow hxhigh hylow hyhigh h
  rw [Bool.eq_iff_iff, sub_eq_add_neg, hpixel ha hb, hpixel (by rwa [abs_neg]) ha, onOutline_turn]

/-! ### CIRCF (R137) -/

/-- `(h, b)` is one of the four spans of the pair `(x, y)`: half width and height over the centre. -/
def SpanOf (x y h b : Int) : Prop := (h = x ∧ |b| = y) ∨ (h = y ∧ |b| = x)

/-- The pixel `(px, py)` lies between the clamped ends of the span of half width `h`, `b` rows off the centre. -/
def InSpan (c : Config) (x0 y0 h b : Int) (px py : Nat) : Prop :=
  py = landsAt c.height (y0 + b) ∧ min (landsAt c.width (x0 - h)) (landsAt c.width (x0 + h)) ≤ px ∧
    px ≤ max (landsAt c.width (x0 - h)) (landsAt c.width (x0 + h))

theorem lands_span (c : Config) (x0 y0 h b : Int) (px py : Nat) :
    Lands c (linePoints c (u16 (x0 - h), u16 (y0 + b)) (u16 (x0 + h), u16 (y0 + b))) px py ↔ InSpan c x0 y0 h b px py := by
  rw [lands_row, clampX_u16, clampX_u16, clampY_u16, InSpan]

theorem lands_discSpans (c : Config) (x0 y0 : Int) {x y : Int} (hx : 0 ≤ x) (hy : 0 ≤ y) (px py : Nat) :
    Lands c (discSpans c x0 y0 (x, y)) px py ↔ ∃ h b, SpanOf x y h b ∧ InSpan c x0 y0 h b px py := by
  simp only [discSpans, lands_append, sub_eq_add_neg y0, lands_span, SpanOf, abs_eq hx, abs_eq hy, or_and_right, and_or_left,
    exists_or, and_assoc, exists_and_left, exists_eq_left]
  tauto

theorem lands_circfPoints (c : Config) (x0 y0 r : Coord) (px py : Nat) :
    Lands c (circfPoints c x0 y0 r) px py ↔
      ∃ x y h b, (x, y) ∈ circleSteps r.toNat ∧ SpanOf x y h b ∧ InSpan c x0.toNat y0.toNat h b px py := by
  simp only [circfPoints, lands_flatMap, Prod.exists]
  refine exists₂_congr fun x y => ?_
  simp only [exists_and_left]
  refine and_congr_right fun hxy => ?_
  obtain ⟨hy, hyx, -⟩ := circleSteps_bounds hxy
  simpa only [exists_and_left] using lands_discSpans c x0.toNat y0.toNat (hy.trans hyx) hy px py

/-- Settles O25: CIRCF draws the four spans of each pair. -/
theorem circfDrawsTheSpans : Obligations.CircfDrawsTheSpans :=
  ⟨fun w hop => by rw [decode, hop]; rfl,
    fun s x0 y0 r _ hwf => draw_plots_painted hwf _ (lands_circfPoints s.cfg x0 y0 r)⟩

/-- A point of the outline is an end of a span of the disc. -/
theorem lands_circfPoints_of_circPoints {c : Config} {x0 y0 r : Coord} {px py : Nat}
    (h : Lands c (circPoints x0 y0 r) px py) : Lands c (circfPoints c x0 y0 r) px py := by
  obtain ⟨a, b, ⟨x, y, hxy, hsym⟩, rfl, rfl⟩ := (lands_circPoints c x0 y0 r px py).mp h
  refine (lands_circfPoints c x0 y0 r _ _).mpr ⟨x, y, |a|, b, hxy, hsym, rfl, ?_⟩
  obtain ha | ha := abs_choice a
  · rw [ha]
    exact ⟨min_le_right _ _, le_max_right _ _⟩
  · rw [ha, sub_neg_eq_add]
    exact ⟨min_le_left _ _, le_max_left _ _⟩

/-- Settles O26: what CIRC paints CIRCF paints too, and neither clears a pixel. -/
theorem discContainsOutline : Obligations.DiscContainsOutline := by
  intro s t u x0 y0 r v hwf hv hcirc hcircf px py hx hy hon
  have houtline : Drawn s t true (Lands s.cfg (circPoints x0 y0 r)) := drawn_of_draw hwf hv hcirc
  have hdisc : Drawn s u true (Lands s.cfg (circfPoints s.cfg x0 y0 r)) := drawn_of_draw hwf hv hcircf
  rw [hdisc.pixel_iff hx hy]
  exact ((houtline.pixel_iff hx hy).mp hon).imp_left lands_circfPoints_of_circPoints

end Sys2Proof.Machine
end

section
/-! SUPPORT. The statement on ICON (41_primitives.md): its cells in order, and which of them decides a pixel. -/

namespace Sys2Proof.Machine

/-! ### ICON (R138) -/

/-- The column of a numbered cell, and its row. -/
theorem cellNumber_div {height row : Nat} (hrow : row < height) (col : Nat) : (col * height + row) / height = col := by
  rw [Nat.add_comm, Nat.add_mul_div_right _ _ (by omega), Nat.div_eq_of_lt hrow, Nat.zero_add]

theorem cellNumber_mod {height row : Nat} (hrow : row < height) (col : Nat) : (col * height + row) % height = row := by
  rw [Nat.mul_add_mod', Nat.mod_eq_of_lt hrow]

/-- A sweep of columns of equal height is one run over all cells, numbered down the columns. -/
theorem flatMap_columns {α : Type} (width height : Nat) (f : Nat → Nat → α) :
    ((List.range width).flatMap fun col => (List.range height).map (f col)) =
      (List.range (width * height)).map fun k => f (k / height) (k % height) := by
  induction width with
  | zero => simp
  | succ n ih =>
    rw [List.range_succ, List.flatMap_append, ih, Nat.succ_mul, List.range_add, List.map_append, List.flatMap_singleton,
      List.map_map]
    refine congrArg _ (List.map_congr_left fun row hrow => ?_)
    rw [List.mem_range] at hrow
    rw [Function.comp_apply, cellNumber_div hrow, cellNumber_mod hrow]

/-- The calls of ICON in order: cell `k` is row `k mod height` of column `k div height`. -/
theorem iconPlots_eq (m : Memory) (x y width height : Coord) (on : Bool) (words : Addr) :
    iconPlots m x y width height on words =
      (List.range (width.toNat * height.toNat)).map fun k =>
        iconCell m x y height on words (k / height.toNat) (k % height.toNat) :=
  flatMap_columns _ _ _

theorem plotAll_concat (c : Config) (m : Memory) (ps : List Plot) (p : Plot) :
    plotAll c m (ps ++ [p]) = setPixel c (plotAll c m ps) p.at_.1 p.at_.2 p.on := by
  rw [plotAll, List.foldl_append]
  rfl

/-- Of numbered calls the last one that lands on a pixel decides its state. -/
theorem plotAll_range_pixel {c : Config} {m : Memory} (hm : m.wf) (f : Nat → Plot) {px py : Nat} (hx : px < c.width)
    {n k : Nat} (hk : k < n) (hhits : Plot.hits c px py (f k) = true)
    (hlast : ∀ j < n, Plot.hits c px py (f j) = true → j ≤ k) :
    pixel c (plotAll c m ((List.range n).map f)) px py = (f k).on := by
  induction n with
  | zero => omega
  | succ n ih =>
    rw [List.range_succ, List.map_append, List.map_singleton, plotAll_concat, setPixel_pixel (plotAll_wf _ hm) _ _ _ hx]
    by_cases hkn : k = n
    · subst hkn
      rw [if_pos (of_decide_eq_true hhits)]
    · have hmiss : ¬ Plot.hits c px py (f n) = true := fun hn => by
        have := hlast n (by omega) hn
        omega
      rw [if_neg fun hland => hmiss (decide_eq_true hland)]
      exact ih (by omega) fun j hj => hlast j (by omega)

/-- A pixel no call lands on keeps its state. -/
theorem plotAll_pixel_untouched {c : Config} {m : Memory} (hm : m.wf) {ps : List Plot} {px py : Nat} (hx : px < c.width)
    (h : ∀ p ∈ ps, ¬ Plot.hits c px py p = true) : pixel c (plotAll c m ps) px py = pixel c m px py := by
  have hnone : ps.reverse.find? (Plot.hits c px py) = none :=
    List.find?_eq_none.mpr fun p hp => h p (List.mem_reverse.mp hp)
  rw [plotAll_pixel ps hm hx, hnone]

theorem iconCell_hits (c : Config) (m : Memory) (x y height : Coord) (on : Bool) (words : Addr) (col row px py : Nat) :
    Plot.hits c px py (iconCell m x y height on words col row) = true ↔
      px = landsAt c.width (x.toNat + col) ∧ py = landsAt c.height (y.toNat + row) := by
  rw [Plot.hits, decide_eq_true_eq, iconCell, clampX_u16, clampY_u16]

/-- The last cell in column-major order that lands on a pixel decides its state. -/
theorem iconPlots_pixel {c : Config} {m : Memory} (hm : m.wf) (asset : Memory) {x y width height : Coord} (on : Bool)
    (words : Addr) {px py col row : Nat} (hx : px < c.width) (hcol : col < width.toNat) (hrow : row < height.toNat)
    (hpx : px = landsAt c.width (x.toNat + col)) (hpy : py = landsAt c.height (y.toNat + row))
    (hlast : ∀ col' row', col' < width.toNat → row' < height.toNat → px = landsAt c.width (x.toNat + col') →
      py = landsAt c.height (y.toNat + row') → col' * height.toNat + row' ≤ col * height.toNat + row) :
    pixel c (plotAll c m (iconPlots asset x y width height on words)) px py =
      (iconBit asset words (col * height.toNat + row) && on) := by
  have hnumber : col * height.toNat + row < width.toNat * height.toNat :=
    calc col * height.toNat + row < (col + 1) * height.toNat := by rw [Nat.succ_mul]; omega
      _ ≤ width.toNat * height.toNat := Nat.mul_le_mul_right _ hcol
  have hhits := (iconCell_hits c asset x y height on words col row px py).mpr ⟨hpx, hpy⟩
  rw [iconPlots_eq, plotAll_range_pixel hm _ hx hnumber, cellNumber_div hrow, cellNumber_mod hrow, iconCell]
  · rwa [cellNumber_div hrow, cellNumber_mod hrow]
  · intro j hj hland
    obtain ⟨hjx, hjy⟩ := (iconCell_hits ..).mp hland
    rw [← Nat.div_add_mod' j height.toNat]
    exact hlast _ _ (Nat.div_lt_of_lt_mul (by rwa [Nat.mul_comm])) (Nat.mod_lt _ (by omega)) hjx hjy

/-- Settles O27: the calls of ICON are its cells in column-major order, and the last call on a pixel decides it. -/
theorem iconCopiesItsCellsColumnMajor : Obligations.IconCopiesItsCellsColumnMajor := by
  refine ⟨fun w hop => by rw [decode, hop]; rfl, fun s x y width height v p hwf => ?_⟩
  refine ⟨_, rfl, rfl, fun a ha => ?outside, fun px py hx _ =>
    ⟨fun col row hcol hrow hpx hpy hlast => ?last, fun hnone => ?none⟩⟩
  case outside => exact plotAll_read_other _ hwf fun q _ => ((pixelByte_lt ..).trans_le ha).ne'
  case last => exact iconPlots_pixel hwf s.asset (isOn v) p hx hcol hrow hpx hpy hlast
  case none =>
    refine plotAll_pixel_untouched hwf hx fun q hq hhits => ?_
    obtain ⟨col, row, hcol, hrow, rfl⟩ := mem_iconPlots.mp hq
    exact hnone col row hcol hrow ((iconCell_hits ..).mp hhits)

end Sys2Proof.Machine
end

section
/-! SUPPORT. The statements on fonts and text (42_glyph_text.md): the glyph table, where the glyphs of a string land, the
measured width, and the justification offsets. -/

namespace Sys2Proof.Machine

/-! ### Fonts and glyphs (R160, R161, R164) -/

/-- The signed value of a byte is its two's complement value. -/
theorem sx8_eq_toInt (b : Byte) : sx8 b = b.toInt := by
  rw [sx8, BitVec.toInt_eq_toNat_cond]
  split <;> split <;> omega

/-- Settles O30: both records are read at fixed distances from their addresses, and the table's range is tested first. -/
theorem glyphLookupReadsTheTable : Obligations.GlyphLookupReadsTheTable := by
  intro m p c
  refine ⟨rfl, rfl, rfl, rfl, rfl, lookup_outside, fun hfirst hlast => ⟨_, lookup_inside hfirst hlast, ?_⟩⟩
  exact ⟨rfl, rfl, rfl, sx8_eq_toInt _, sx8_eq_toInt _, rfl⟩

/-! ### The font reference (R162, R163) -/

/-- Settles O31: the status word's bit 6 says whether the stored reference is one. -/
theorem setfontStoresTheReference : Obligations.SetfontStoresTheReference := by
  refine ⟨fun w hop => by rw [decode, hop]; rfl, fun s p => ⟨rfl, fun t ht => ?_⟩⟩
  obtain rfl := done_eq_next ht
  exact statusWord_fontValid _

theorem exec_glyph (s : State) (x y : Coord) (ch v : Byte) :
    exec (.glyph x y ch v) s = withBoundFont s fun f => draw (plots (isOn v) (charPoints s.cfg s.asset f ch x y)) s := rfl

theorem exec_wstr (s : State) (x y l : Coord) (v : Byte) (p : Addr) :
    exec (.wstr x y v l p) s = withBoundFont s fun f =>
      draw (plots (isOn v) (stringPoints s.cfg s.asset f y (assetBytes s.asset p l.toNat) x)) s := rfl

theorem exec_strb (s : State) (l : Coord) (p : Addr) :
    exec (.strb l p) s = withBoundFont s fun f =>
      done (s.withExtent (BitVec.ofNat 16 (min (measuredWidth s.asset f (assetBytes s.asset p l.toNat)) s.cfg.width))
        (f.maxHeight.setWidth 16)) := rfl

/-- Settles O32: the three begin with the same font check. -/
theorem textNeedsAFont : Obligations.TextNeedsAFont := by
  refine fun s x y l ch v p hfont => ⟨?glyph, ?wstr, ?strb⟩
  case glyph => exact (exec_glyph ..).trans (withBoundFont_unbound hfont _)
  case wstr => exact (exec_wstr ..).trans (withBoundFont_unbound hfont _)
  case strb => exact (exec_strb ..).trans (withBoundFont_unbound hfont _)

/-! ### GLYPH (R165, R166) -/

/-- The points of a glyph land where its set bits do. -/
theorem lands_glyphPoints (c : Config) (m : Memory) (base : Addr) (g : GlyphRecord) (x y : Coord) (px py : Nat) :
    Lands c (glyphPoints c m base g x y) px py ↔ glyphLands c m base g x.toNat y px py := by
  simp only [Lands, mem_glyphPoints, glyphLands]
  constructor
  · rintro ⟨_, ⟨row, col, hrow, hcol, hbit, rfl⟩, hpx, hpy⟩
    exact ⟨row, col, hrow, hcol, hbit, hpx.trans (clampX_u16 ..), hpy.trans (clampY_u16 ..)⟩
  · rintro ⟨row, col, hrow, hcol, hbit, hpx, hpy⟩
    exact ⟨_, ⟨row, col, hrow, hcol, hbit, rfl⟩, hpx.trans (clampX_u16 ..).symm, hpy.trans (clampY_u16 ..).symm⟩

theorem charPoints_of_none {m : Memory} {f : Font} {char : Byte} (h : lookup m f char = none) (c : Config) (x y : Coord) :
    charPoints c m f char x y = [] := by
  rw [charPoints, h]

theorem charPoints_of_some {m : Memory} {f : Font} {char : Byte} {g : GlyphRecord} (h : lookup m f char = some g)
    (c : Config) (x y : Coord) : charPoints c m f char x y = glyphPoints c m f.bitmapBase g x y := by
  rw [charPoints, h]

/-- Settles O33: a character of the font draws its glyph's points, any other draws none. -/
theorem glyphDrawsItsSetBits : Obligations.GlyphDrawsItsSetBits := by
  refine ⟨fun w hop => by rw [decode, hop]; rfl, fun s x y ch v => ⟨fun hfont => ?unbound,
    fun hfont hnone => ?outside, fun g hfont hwf hg => ?drawn⟩⟩
  case unbound => exact (exec_glyph ..).trans (withBoundFont_unbound hfont _)
  case outside =>
    rw [exec_glyph, withBoundFont_bound hfont, charPoints_of_none hnone]
    rfl
  case drawn =>
    rw [exec_glyph, withBoundFont_bound hfont, charPoints_of_some hg]
    exact draw_plots_painted hwf v (lands_glyphPoints s.cfg s.asset _ g x y)

/-! ### WSTR (R167) -/

/-- A character lands where its glyph does, if the font has it. -/
theorem lands_charPoints (c : Config) (m : Memory) (f : Font) (char : Byte) (x y : Coord) (px py : Nat) :
    Lands c (charPoints c m f char x y) px py ↔
      ∃ g, lookup m f char = some g ∧ glyphLands c m f.bitmapBase g x.toNat y px py := by
  cases hg : lookup m f char with
  | none => simp [charPoints_of_none hg, Lands]
  | some g => simp [charPoints_of_some hg, lands_glyphPoints]

/-- A character moves the pen by its advance, which is 0 when the font does not have it. -/
theorem penAfter_eq (m : Memory) (f : Font) (char : Byte) (pen : Coord) :
    penAfter m f char pen = u16 (pen.toNat + advanceOf m f char) := by
  unfold penAfter advanceOf
  cases lookup m f char <;> simp

/-- The pen may be reduced modulo 65536 before it is moved on, since it is reduced again where it lands. -/
theorem u16_toNat_add_emod (a b : Int) : (((u16 a).toNat : Int) + b) % 65536 = (a + b) % 65536 := by
  rw [u16_toNat]
  omega

theorem landsAt_u16_add (size : Nat) (a b : Int) : landsAt size ((u16 a).toNat + b) = landsAt size (a + b) := by
  rw [landsAt, u16_toNat_add_emod, landsAt]

theorem glyphLands_u16 (c : Config) (m : Memory) (base : Addr) (g : GlyphRecord) (pen : Int) (y : Coord) (px py : Nat) :
    glyphLands c m base g (u16 pen).toNat y px py ↔ glyphLands c m base g pen y px py := by
  simp only [glyphLands, add_assoc, landsAt_u16_add]

theorem penAfter_u16 (m : Memory) (f : Font) (char : Byte) (pen : Int) :
    penAfter m f char (u16 pen) = u16 (pen + advanceOf m f char) := by
  apply BitVec.eq_of_toNat_eq
  rw [penAfter_eq, u16_toNat, u16_toNat_add_emod, u16_toNat]

/-- The advances of the first `i` characters of a string. -/
def advanceBefore (m : Memory) (f : Font) (text : List Byte) (i : Nat) : Nat :=
  ((text.take i).map (advanceOf m f)).sum

theorem advanceBefore_zero (m : Memory) (f : Font) (text : List Byte) : advanceBefore m f text 0 = 0 := rfl

theorem advanceBefore_cons_succ (m : Memory) (f : Font) (char : Byte) (rest : List Byte) (i : Nat) :
    advanceBefore m f (char :: rest) (i + 1) = advanceOf m f char + advanceBefore m f rest i := rfl

/-- A string lands where the glyph of one of its characters does, drawn at the start moved by the advances before it. -/
theorem lands_stringPoints (c : Config) (m : Memory) (f : Font) (y : Coord) (px py : Nat) (text : List Byte) (pen : Int) :
    Lands c (stringPoints c m f y text (u16 pen)) px py ↔
      ∃ i g, text[i]?.bind (lookup m f) = some g ∧
        glyphLands c m f.bitmapBase g (pen + advanceBefore m f text i) y px py := by
  induction text generalizing pen with
  | nil => simp [stringPoints, Lands]
  | cons char rest ih =>
    rw [stringPoints, lands_append, lands_charPoints, penAfter_u16, ih]
    refine Iff.trans ?_ Nat.or_exists_add_one
    refine or_congr (exists_congr fun g => ?_) (exists₂_congr fun i g => ?_)
    · simp [glyphLands_u16, advanceBefore_zero]
    · simp [advanceBefore_cons_succ, add_assoc]

/-- The text of an operation: bytes from consecutive addresses, wrapped modulo 2^32 (R54). -/
theorem assetBytes_eq (m : Memory) (p : Addr) (n : Nat) :
    assetBytes m p n = (List.range n).map fun i => m.read ((p.toNat + i) % 2 ^ 32) := by
  simp only [assetBytes, a8_offset]

theorem advanceBefore_range (m : Memory) (f : Font) (char : Nat → Byte) {i n : Nat} (h : i ≤ n) :
    advanceBefore m f ((List.range n).map char) i = ((List.range i).map fun j => advanceOf m f (char j)).sum := by
  rw [advanceBefore, ← List.map_take, List.take_range, min_eq_left h, List.map_map]
  rfl

/-- The same for a text given by the character at each index. -/
theorem lands_stringPoints_range (c : Config) (m : Memory) (f : Font) (char : Nat → Byte) (n : Nat) (x y : Coord)
    (px py : Nat) :
    Lands c (stringPoints c m f y ((List.range n).map char) x) px py ↔
      ∃ i g, i < n ∧ lookup m f (char i) = some g ∧
        glyphLands c m f.bitmapBase g
          ((x.toNat + ((List.range i).map fun j => advanceOf m f (char j)).sum : Nat) : Int) y px py := by
  rw [← u16_coord x, lands_stringPoints, u16_coord]
  refine exists₂_congr fun i g => ?_
  by_cases hi : i < n
  · simp [hi, advanceBefore_range m f char hi.le]
  · simp [hi]

/-- Settles O34: WSTR draws the points of its text's characters. -/
theorem wstrDrawsEachGlyphAtItsPen : Obligations.WstrDrawsEachGlyphAtItsPen := by
  refine ⟨fun w hop => by rw [decode, hop]; rfl, fun s x y l v p => ⟨fun hfont => ?unbound, fun hfont hwf => ?drawn⟩⟩
  case unbound => exact (exec_wstr ..).trans (withBoundFont_unbound hfont _)
  case drawn =>
    rw [exec_wstr, withBoundFont_bound hfont, assetBytes_eq]
    exact draw_plots_painted hwf v (lands_stringPoints_range s.cfg s.asset _ _ l.toNat x y)

/-! ### STRB (R168) -/

/-- The carriage return adds nothing to a string's width, any other character its advance. -/
theorem measuredAdvance_eq (m : Memory) (f : Font) (char : Byte) :
    measuredAdvance m f char = if char = 0x0D then 0 else advanceOf m f char := rfl

theorem measuredWidth_eq_sum (m : Memory) (f : Font) (text : List Byte) :
    measuredWidth m f text = (text.map (measuredAdvance m f)).sum := by
  rw [measuredWidth, List.sum_eq_foldl, List.foldl_map]

/-- Characters that add nothing may be left out before the advances are summed. -/
theorem measuredWidth_eq (m : Memory) (f : Font) (text : List Byte) :
    measuredWidth m f text = ((text.filter (· ≠ 0x0D)).map (advanceOf m f)).sum := by
  rw [measuredWidth_eq_sum]
  induction text with
  | nil => rfl
  | cons char rest ih =>
    rw [List.map_cons, List.sum_cons, ih, measuredAdvance_eq]
    by_cases hreturn : char = 0x0D
    · rw [if_pos hreturn, List.filter_cons_of_neg (by simpa using hreturn), zero_add]
    · rw [if_neg hreturn, List.filter_cons_of_pos (by simpa using hreturn), List.map_cons, List.sum_cons]

/-- Settles O35: the width fits its register because no panel is wider than 32768. -/
theorem strbMeasuresTheString : Obligations.StrbMeasuresTheString := by
  refine ⟨fun w hop => by rw [decode, hop]; rfl, fun s l p => ⟨fun hfont => ?unbound, fun hfont =>
    ⟨_, (exec_strb ..).trans (withBoundFont_bound hfont _), rfl, ?width, ?height⟩⟩⟩
  case unbound => exact (exec_strb ..).trans (withBoundFont_unbound hfont _)
  case width =>
    obtain ⟨-, hwidth⟩ := config_width_bounds s.cfg
    rw [← assetBytes_eq, ← measuredWidth_eq]
    exact (BitVec.toNat_ofNat ..).trans (Nat.mod_eq_of_lt (by omega))
  case height => exact BitVec.toNat_setWidth_of_le (by norm_num)

/-! ### JUST (R169) -/

/-- Halving toward zero is truncating division. -/
theorem tdiv2_eq_tdiv (a : Int) : tdiv2 a = a.tdiv 2 := by
  unfold tdiv2
  split
  · exact (Int.tdiv_eq_ediv_of_nonneg ‹_›).symm
  · rw [← Int.tdiv_eq_ediv_of_nonneg (by omega), Int.neg_tdiv, neg_neg]

/-- Reducing a difference of coordinates is subtracting them as words. -/
theorem u16_sub (x y : Coord) : u16 ((x.toNat : Int) - y.toNat) = x - y := by
  apply BitVec.eq_of_toNat_eq
  rw [u16_toNat, BitVec.toNat_sub]
  omega

theorem execJust_center (cw ch : Coord) (s : State) :
    execJust cw ch 1 s = done (s.withOrigin (u16 (((ch.toNat : Int) + s.boundH.toNat).tdiv 2))
      (u16 (((cw.toNat : Int) - s.boundW.toNat).tdiv 2))) := by
  rw [← tdiv2_eq_tdiv, ← tdiv2_eq_tdiv]
  rfl

theorem execJust_right (cw ch : Coord) (s : State) :
    execJust cw ch 2 s = done (s.withOrigin (ch - s.boundH) (cw - s.boundW)) := by
  rw [← u16_sub, ← u16_sub]
  rfl

theorem execJust_illegal {mode : Byte} (h : 2 < mode.toNat) (cw ch : Coord) (s : State) :
    execJust cw ch mode s = raise .illegalOperation s := by
  obtain ⟨k, hk⟩ := Nat.exists_eq_add_of_le' h
  rw [execJust, hk]
  rfl

/-- Settles O36: one clause per mode. -/
theorem justComputesTheOffsets : Obligations.JustComputesTheOffsets := by
  refine ⟨fun w hop => by rw [decode, hop]; rfl, fun s cw ch mode => ⟨?left, ?center, ?right, ?illegal⟩⟩
  case left => rintro rfl; rfl
  case center => rintro rfl; exact execJust_center cw ch s
  case right => rintro rfl; exact execJust_right cw ch s
  case illegal => exact fun hmode => execJust_illegal hmode cw ch s

end Sys2Proof.Machine
end

section
/-! SUPPORT. The statements on the framer unit (43_device_framer.md): the discipline of its frames, what OPEN, SYNC and CLOSE
send, and the lifecycle. -/

namespace Sys2Proof.Machine

/-! ### The frames (R58, R191 to R194) -/

/-- A frame begins with the data selector exactly when it is the buffer: the two selectors differ (R9). -/
theorem frameBytesOf_isData_iff (s : State) (f : FrameKind) :
    (frameBytesOf s f).head? = some s.cfg.selData ↔ f = .buffer := by
  cases f <;> simp [frameBytesOf, (config_selData_ne_selCmd s.cfg).symm]

/-- The payload of the init frame is read from the asset memory, whose addresses wrap (R54). -/
theorem frameBytesOf_init (s : State) (p : Addr) (l : Coord) : frameBytesOf s (.init p l) = initFrame s l p := by
  simp [frameBytesOf, initFrame, assetBytes, a8_offset]

/-- The cleared framebuffer reads as zero at every index, inside the framebuffer or not. -/
theorem fillAll_off_read (c : Config) : (fillAll c false).read = fun _ => 0 := by
  funext i
  exact (memory_read_ofFn ..).trans (ite_self _)

/-! ### The discipline of the frames (R193, R201) -/

/-- The cursor reset was the last frame, and the channel has answered it. -/
def CursorAnswered (s : State) : Prop :=
  ∃ earlier n, s.events = earlier ++ [.write s.ch (cursorFrame s), .answer n]

/-- The part of `FrameDisciplineInv` that speaks of the frames alone. -/
def FrameDiscipline (s : State) : Prop :=
  FlushesPaired s ∧ ∀ w, s.inProgress = some w → w.remaining.head? = some (.send .buffer) →
    ∃ earlier, s.events = earlier ++ [.write s.ch (cursorFrame s)]

/-- In a list of actions the buffer is sent only right after the cursor reset, or as the first action if `justSent`. -/
def CursorFirst : Bool → List FramerAction → Bool
  | _, [] => true
  | justSent, .send .buffer :: rest => justSent && CursorFirst false rest
  | _, .send .cursor :: rest => CursorFirst true rest
  | _, .send (.init _ _) :: rest => CursorFirst false rest
  | _, .blank :: rest => CursorFirst false rest
  | _, .ready :: rest => CursorFirst false rest
  | _, .release :: rest => CursorFirst false rest

/-- Only a buffer action asks that the cursor reset was just sent, and only a cursor action provides it. -/
theorem cursorFirst_send {justSent : Bool} {f : FrameKind} {rest : List FramerAction}
    (h : CursorFirst justSent (.send f :: rest) = true) :
    (f = .buffer → justSent = true) ∧ CursorFirst (decide (f = .cursor)) rest = true := by
  cases f <;> simp_all [CursorFirst]

/-- A list of actions that begins with the buffer asks that the cursor reset was just sent. -/
theorem justSent_of_buffer_first {justSent : Bool} {acts : List FramerAction} (h : CursorFirst justSent acts = true)
    (hhead : acts.head? = some (.send .buffer)) : justSent = true := by
  obtain ⟨rest, rfl⟩ := List.head?_eq_some_iff.mp hhead
  exact (cursorFirst_send h).1 rfl

/-- One more event keeps the frames paired if it is no Data frame, or one right after an answered cursor reset. -/
theorem FlushesPaired.emit {s : State} {e : ChannelEvent} (h : FlushesPaired s)
    (he : ∀ ch frame, e = .write ch frame → frame.head? = some s.cfg.selData →
      ∃ earlier n, s.events = earlier ++ [.write ch (cursorFrame s), .answer n]) : FlushesPaired (s.emit e) := by
  intro before ch frame after hev hdata
  have hev : s.events ++ [e] = before ++ .write ch frame :: after := hev
  rcases List.eq_nil_or_concat after with rfl | ⟨after, last, rfl⟩
  · obtain ⟨rfl, hlast⟩ := List.append_inj' hev rfl
    exact he ch frame (List.singleton_injective hlast) hdata
  · rw [List.concat_eq_append, ← List.cons_append, ← List.append_assoc] at hev
    exact h before ch frame after (List.append_inj' hev rfl).1 hdata

/-- Sending a frame keeps the frames paired, the buffer's if the cursor reset has just been answered. -/
theorem FlushesPaired.emit_frame {s : State} (h : FlushesPaired s) {f : FrameKind}
    (hbuffer : f = .buffer → CursorAnswered s) : FlushesPaired (s.emit (.write s.ch (frameBytesOf s f))) := by
  refine h.emit fun ch frame hwrite hdata => ?_
  obtain ⟨rfl, rfl⟩ := ChannelEvent.write.inj hwrite
  exact hbuffer ((frameBytesOf_isData_iff s f).mp hdata)

/-- Actions that send the buffer only after the cursor reset keep the discipline, whether they end or wait. -/
theorem runFramer_discipline {justSent : Bool} {acts : List FramerAction} (m : Bool) {s : State}
    (horder : CursorFirst justSent acts = true) (hsent : justSent = true → CursorAnswered s)
    (hidle : s.inProgress = none) (hpaired : FlushesPaired s) : FrameDiscipline (runFramer acts m s) := by
  induction acts generalizing justSent m s with
  | nil => exact ⟨hpaired, fun w hw => by simp [hidle] at hw⟩
  | cons a rest ih =>
    cases a with
    | blank => exact ih m (s := s.withFrame (fillAll s.cfg false)) horder nofun hidle hpaired
    | ready => exact ih m (s := s.withSession .ready s.ch) horder nofun hidle hpaired
    | release =>
      exact ih m (s := (s.emit (.release s.ch)).withSession .closed 0) horder nofun hidle (hpaired.emit nofun)
    | send f =>
      obtain ⟨hbuffer, hrest⟩ := cursorFirst_send horder
      have hwritten := hpaired.emit_frame fun hf => hsent (hbuffer hf)
      cases ha : s.answers with
      | nil =>
        rw [runFramer_send_waits ha]
        refine ⟨hwritten, fun w hw hhead => ?_⟩
        obtain rfl := Option.some.inj hw
        obtain rfl : f = .cursor := of_decide_eq_true (justSent_of_buffer_first hrest hhead)
        exact ⟨s.events, rfl⟩
      | cons n more =>
        rw [runFramer_send_answered ha]
        refine ih _ hrest (fun hf => ?_) hidle (FlushesPaired.emit hwritten nofun)
        obtain rfl : f = .cursor := of_decide_eq_true hf
        exact ⟨s.events, n, List.append_assoc ..⟩

/-- What an operation in progress has left to do sends the buffer first, or after a cursor reset of its own. -/
theorem framingInv_cursorFirst {p : Lifecycle} {remaining : List FramerAction} (h : FramingInv p remaining) :
    CursorFirst (decide (remaining.head? = some (.send .buffer))) remaining = true := by
  obtain ⟨-, rfl | rfl | rfl⟩ | ⟨-, rfl | rfl | rfl | rfl⟩ := h <;> rfl

/-- The operation in progress takes its answer: where it goes on with the buffer, the answer is the cursor reset's. -/
theorem resumeFramer_discipline {s : State} {w : Framing} (hbusy : s.inProgress = some w)
    (hplace : FramingInv s.pstate w.remaining) (h : FrameDiscipline s) : FrameDiscipline (resumeFramer w s) := by
  cases ha : s.answers with
  | nil => rwa [resumeFramer_waits ha]
  | cons n more =>
    obtain ⟨hpaired, hcursor⟩ := h
    rw [resumeFramer_answered ha]
    refine runFramer_discipline _ (framingInv_cursorFirst hplace) (fun hhead => ?_) rfl (FlushesPaired.emit hpaired nofun)
    obtain ⟨earlier, hlast⟩ := hcursor w hbusy (of_decide_eq_true hhead)
    exact ⟨earlier, n, (congrArg (· ++ [_]) hlast).trans (List.append_assoc ..)⟩

/-- Only OPEN, SYNC and CLOSE send frames, and each sends the buffer after the cursor reset. -/
theorem execForm_discipline {s t : State} (hform : ExecForm s t) (hidle : s.inProgress = none) (h : FrameDiscipline s) :
    FrameDiscipline t := by
  obtain ⟨hpaired, -⟩ := id h
  cases hform with
  | drawn m hm => exact h
  | failed c hc => exact h
  | font p => exact h
  | origin x y => exact h
  | extent w k hw hk => exact h
  | opened v l p hv hp => exact runFramer_discipline (justSent := false) _ rfl nofun hidle hpaired
  | synced hp => exact runFramer_discipline (justSent := false) _ rfl nofun hidle hpaired
  | closed hp => exact runFramer_discipline (justSent := false) _ rfl nofun hidle hpaired
  | cleaned hp => exact runFramer_discipline (justSent := false) _ rfl nofun hidle hpaired

theorem Operated.keeps_discipline {s r : State} (hop : Operated s r) (hsession : SessionInv s) (h : FrameDiscipline s) :
    FrameDiscipline r := by
  cases hop with
  | resumed w hbusy =>
    obtain ⟨-, -, hplace⟩ := hsession
    exact resumeFramer_discipline hbusy (hplace w hbusy) h
  | executed hidle hform => exact execForm_discipline hform hidle h

theorem retire_discipline {s : State} (h : FrameDiscipline s) : FrameDiscipline s.retire := by
  rw [retire_eq]
  split <;> exact h

theorem step_discipline {s t : State} (hsession : SessionInv s) (h : FrameDiscipline s) (hstep : step s = .next t) :
    FrameDiscipline t := by
  by_cases hwork : s.inProgress ≠ none ∨ s.position < s.program.length
  · obtain ⟨r, hr, hop⟩ := step_operates hwork
    obtain rfl := Host.Outcome.next.inj (hr.symm.trans hstep)
    exact retire_discipline (hop.keeps_discipline hsession h)
  · obtain ⟨hidle, hend⟩ := not_or.mp hwork
    obtain rfl := Host.Outcome.next.inj ((step_waits (not_not.mp hidle) (not_lt.mp hend)).symm.trans hstep)
    exact h

/-- Settles O57: the machine's invariant is kept by O56, and the discipline by every operation a step can be. -/
theorem everyDataFrameFollowsACursorReset : Obligations.EveryDataFrameFollowsACursorReset := by
  rintro s t ⟨hinv, hdiscipline⟩ hclaim hstep
  obtain ⟨t', hstep', hinv', hclaim'⟩ := everyStepKeepsTheInvariant s hinv hclaim
  obtain rfl := Host.Outcome.next.inj (hstep'.symm.trans hstep)
  obtain ⟨-, hsession, -, -⟩ := hinv
  exact ⟨⟨hinv', step_discipline hsession hdiscipline hstep⟩, hclaim'⟩

/-! ### What OPEN, SYNC and CLOSE send (R194 to R196, R198) -/

/-- The result code of a run: `Ok` exactly when no answer has set the latch. -/
theorem doneCode_eq_ite (m : Bool) : doneCode m = if m = false then .ok else .transferSizeMismatch := by
  cases m <;> rfl

/-- A flush that the channel answers twice sends the cursor reset and the framebuffer, and goes on (R193). -/
theorem runFramer_flush_answered {s : State} {a b : Nat} {rest : List Nat} (h : s.answers = a :: b :: rest)
    (after : List FramerAction) (m : Bool) :
    runFramer (.send .cursor :: .send .buffer :: after) m s =
      runFramer after (m || a != s.cfg.cursorReset.length + 1 || b != s.cfg.frameBytes + 1) { s with
        answers := rest
        events := s.events ++ [.write s.ch (cursorFrame s), .answer a, .write s.ch (dataFrame s s.fb.read), .answer b] } := by
  rw [runFramer_send_answered h, runFramer_send_answered (more := rest) rfl]
  simp [State.emit, State.withAnswers, frameBytesOf, cursorFrame, dataFrame]

/-- A flush of the cleared framebuffer, as OPEN and CLOSE have it, sends zero bytes only (R194, R196). -/
theorem runFramer_cleanFlush_answered {s : State} {a b : Nat} {rest : List Nat} (h : s.answers = a :: b :: rest)
    (after : List FramerAction) (m : Bool) :
    runFramer (.blank :: .send .cursor :: .send .buffer :: after) m s =
      runFramer after (m || a != s.cfg.cursorReset.length + 1 || b != s.cfg.frameBytes + 1) { s with
        fb := fillAll s.cfg false
        answers := rest
        events := s.events ++
          [.write s.ch (cursorFrame s), .answer a, .write s.ch (dataFrame s fun _ => 0), .answer b] } := by
  rw [runFramer_blank, runFramer_flush_answered (s := s.withFrame (fillAll s.cfg false)) h, State.withFrame_fb, fillAll_off_read]
  rfl

/-- Settles O38: SYNC in `Ready` is a flush and nothing else. -/
theorem syncSendsTheBuffer : Obligations.SyncSendsTheBuffer := by
  refine ⟨fun w hop => by rw [decode, hop]; rfl, fun s => ⟨fun hp => execSync_notReady hp, fun a b rest hp ha => ?_⟩⟩
  refine (execSync_ready hp).trans (congrArg _ ?_)
  rw [runFramer_flush_answered ha, runFramer_nil, doneCode_eq_ite]
  simp [State.withLast]

/-- Settles O39: with the clean flag CLOSE is a flush of the cleared framebuffer before the release. -/
theorem closeReleasesTheChannel : Obligations.CloseReleasesTheChannel := by
  refine ⟨fun w hop => by rw [decode, hop]; rfl, fun s v => ⟨fun hp => execClose_notReady hp v, ?keep, ?clean⟩⟩
  case keep =>
    rintro hp rfl
    exact execClose_keep hp
  case clean =>
    intro a b rest hp hv ha
    refine ⟨_, execClose_clean hv hp, ?_⟩
    rw [runFramer_cleanFlush_answered ha, runFramer_release, runFramer_nil, doneCode_eq_ite]
    refine ⟨congrFun (fillAll_off_read s.cfg), ?_⟩
    simp [State.withSession, State.withLast, State.emit]

/-- Settles O37: OPEN sends the init frame, then flushes the cleared framebuffer, then is `Ready`. -/
theorem openStartsTheSession : Obligations.OpenStartsTheSession := by
  refine ⟨fun w hop => by rw [decode, hop]; rfl, fun s v l p => ⟨?noChannel, fun hv hp => execOpen_open hv hp l p, ?runs⟩⟩
  case noChannel =>
    rintro rfl
    exact execOpen_noChannel s l p
  case runs =>
    intro a b c rest hv hp ha
    refine ⟨_, execOpen_closed hv hp l p, ?_⟩
    rw [runFramer_send_answered (s := s.withSession .initializing v) ha, runFramer_cleanFlush_answered rfl, runFramer_ready,
      runFramer_nil, doneCode_eq_ite, frameBytesOf_init]
    refine ⟨congrFun (fillAll_off_read s.cfg), ?_⟩
    simp [State.withSession, State.withLast, State.emit, State.withAnswers, initFrame, cursorFrame, dataFrame, and_assoc]

/-! ### The lifecycle (R190) -/

/-- Whether an action leaves the session alone. -/
def keepsSession : FramerAction → Bool
  | .send _ => true
  | .blank => true
  | .ready => false
  | .release => false

/-- Actions that leave the session alone wait in the same session, or lead to a state in the same session from which the
actions after them run. -/
theorem runFramer_append {acts : List FramerAction} (hacts : ∀ a ∈ acts, keepsSession a = true) (after : List FramerAction)
    (m : Bool) (s : State) :
    ((runFramer (acts ++ after) m s).inProgress ≠ none ∧ (runFramer (acts ++ after) m s).pstate = s.pstate ∧
      (runFramer (acts ++ after) m s).ch = s.ch) ∨
    ∃ m' u, runFramer (acts ++ after) m s = runFramer after m' u ∧ u.inProgress = s.inProgress ∧ u.pstate = s.pstate ∧
      u.ch = s.ch := by
  induction acts generalizing m s with
  | nil => exact .inr ⟨m, s, rfl, rfl, rfl, rfl⟩
  | cons a acts ih =>
    obtain ⟨hhead, hrest⟩ := List.forall_mem_cons.mp hacts
    cases a with
    | blank => exact ih hrest m (s.withFrame (fillAll s.cfg false))
    | ready => nomatch hhead
    | release => nomatch hhead
    | send f =>
      rw [List.cons_append]
      cases ha : s.answers with
      | nil =>
        rw [runFramer_send_waits ha]
        exact .inl ⟨Option.some_ne_none _, rfl, rfl⟩
      | cons n more =>
        rw [runFramer_send_answered ha]
        exact ih hrest _ (((s.emit (.write s.ch (frameBytesOf s f))).withAnswers more).emit (.answer n))

/-- A run whose last action makes the session `Ready` does so exactly when it ends, and keeps the channel. -/
theorem runFramer_to_ready {acts : List FramerAction} (hacts : ∀ a ∈ acts, keepsSession a = true) (m : Bool) {s t : State}
    (hidle : s.inProgress = none) (ht : t = runFramer (acts ++ [.ready]) m s) :
    t.ch = s.ch ∧ t.pstate = if t.inProgress = none then .ready else s.pstate := by
  subst ht
  obtain ⟨hwaits, hpstate, hch⟩ | ⟨m', u, hrun, hprog, hpstate, hch⟩ := runFramer_append hacts [.ready] m s
  · exact ⟨hch, hpstate.trans (if_neg hwaits).symm⟩
  · rw [hrun]
    exact ⟨hch, (if_pos (hprog.trans hidle)).symm⟩

/-- A run whose last action releases the channel does so exactly when it ends, and keeps the session while it waits. -/
theorem runFramer_to_release {acts : List FramerAction} (hacts : ∀ a ∈ acts, keepsSession a = true) (m : Bool)
    {s t : State} (hidle : s.inProgress = none) (ht : t = runFramer (acts ++ [.release]) m s) :
    if t.inProgress = none then t.pstate = .closed ∧ t.ch = 0 else t.pstate = s.pstate ∧ t.ch = s.ch := by
  subst ht
  obtain ⟨hwaits, hpstate, hch⟩ | ⟨m', u, hrun, hprog, hpstate, hch⟩ := runFramer_append hacts [.release] m s
  · rw [if_neg hwaits]
    exact ⟨hpstate, hch⟩
  · have hended : (runFramer [.release] m' u).inProgress = none := hprog.trans hidle
    rw [hrun, if_pos hended]
    exact ⟨rfl, rfl⟩

/-- In `Ready` CLOSE runs actions that leave the session alone, and then releases the channel (R196). -/
theorem execClose_ready {s : State} (h : s.pstate = .ready) (v : Byte) :
    ∃ acts, (∀ a ∈ acts, keepsSession a = true) ∧ execClose v s = .next (runFramer (acts ++ [.release]) false s) := by
  by_cases hv : v = 0
  · subst hv
    exact ⟨[], nofun, execClose_keep h⟩
  · exact ⟨[.blank, .send .cursor, .send .buffer], by decide, execClose_clean hv h⟩

theorem raise_keeps_session {c : ResultCode} {s t : State} (h : raise c s = .next t) : t.pstate = s.pstate ∧ t.ch = s.ch := by
  obtain rfl := raise_eq_next h
  exact ⟨rfl, rfl⟩

theorem execOpen_lifecycle {v : Byte} {l : Coord} {p : Addr} {s t : State} (hidle : s.inProgress = none)
    (h : execOpen v l p s = .next t) :
    if v ≠ 0 ∧ s.pstate = .closed then t.ch = v ∧ t.pstate = if t.inProgress = none then .ready else .initializing
    else t.pstate = s.pstate ∧ t.ch = s.ch := by
  split
  case isTrue hruns =>
    obtain ⟨hv, hp⟩ := hruns
    rw [execOpen_closed hv hp] at h
    exact runFramer_to_ready (acts := [.send (.init p l), .blank, .send .cursor, .send .buffer]) (by simp [keepsSession])
      false (s := s.withSession .initializing v) hidle (Host.Outcome.next.inj h).symm
  case isFalse hfails =>
    by_cases hv : v = 0
    · subst hv
      exact raise_keeps_session h
    · rw [execOpen_open hv fun hp => hfails ⟨hv, hp⟩] at h
      exact raise_keeps_session h

theorem execClose_lifecycle {v : Byte} {s t : State} (hidle : s.inProgress = none) (h : execClose v s = .next t) :
    if s.pstate = .ready ∧ t.inProgress = none then t.pstate = .closed ∧ t.ch = 0
    else t.pstate = s.pstate ∧ t.ch = s.ch := by
  by_cases hp : s.pstate = .ready
  · obtain ⟨acts, hacts, hrun⟩ := execClose_ready hp v
    simpa only [hp, true_and] using runFramer_to_release hacts false hidle (Host.Outcome.next.inj (h.symm.trans hrun))
  · rw [if_neg (not_and_of_not_left _ hp)]
    rw [execClose_notReady hp] at h
    exact raise_keeps_session h

/-- Settles O46: OPEN and CLOSE are the only writers of the session (R20), so the other operations leave it alone. -/
theorem lifecycleTransitions : Obligations.LifecycleTransitions := by
  intro i s t hidle h
  cases i with
  | openDisplay v l p => exact execOpen_lifecycle hidle h
  | close v => exact execClose_lifecycle hidle h
  | _ => exact (exec_respectsWriters h).session.resolve_right (by simp)

end Sys2Proof.Machine
end

section
/-! SUPPORT. The statements on failures and result codes (60_exceptions.md): a failed operation is a no-op, and which
operations are illegal. -/

namespace Sys2Proof.Machine

/-! ### The end of a run of framer actions (R198) -/

/-- A run of framer actions that has ended records what `done` records. -/
theorem runFramer_ended {acts : List FramerAction} {m : Bool} {s : State} (h : (runFramer acts m s).inProgress = none) :
    ∃ m', (runFramer acts m s).last = doneCode m' := by
  induction acts generalizing m s with
  | nil => exact ⟨m, rfl⟩
  | cons a rest ih =>
    cases a with
    | blank => exact ih h
    | ready => exact ih h
    | release => exact ih h
    | send f =>
      cases ha : s.answers with
      | nil =>
        rw [runFramer_send_waits ha] at h
        exact absurd h (Option.some_ne_none _)
      | cons n more =>
        rw [runFramer_send_answered ha] at h ⊢
        exact ih h

/-- What `done` records is never the code of a no-op. -/
theorem doneCode_isNoOp (m : Bool) : (doneCode m).isNoOp = false := by
  cases m <;> rfl

/-! ### The no-op guarantee (R223) -/

/-- The codes 1, 2, 4 and 5 are those of a no-op. -/
theorem code_mem_iff_isNoOp (c : ResultCode) : c.code ∈ [1, 2, 4, 5] ↔ c.isNoOp = true := by
  cases c <;> decide

/-- An operation that has ended changed nothing but the code, or it ran to its end. -/
theorem execForm_ended {s t : State} (hform : ExecForm s t) (hended : t.inProgress = none) :
    t = s.withLast t.last ∨ ∃ m, t.last = doneCode m := by
  cases hform with
  | failed c _ => exact .inl rfl
  | opened v l p _ _ => exact .inr (runFramer_ended hended)
  | synced _ => exact .inr (runFramer_ended hended)
  | closed _ => exact .inr (runFramer_ended hended)
  | cleaned _ => exact .inr (runFramer_ended hended)
  | drawn m _ => exact .inr ⟨false, rfl⟩
  | font p => exact .inr ⟨false, rfl⟩
  | origin x y => exact .inr ⟨false, rfl⟩
  | extent w h _ _ => exact .inr ⟨false, rfl⟩

/-- Settles O47: an operation that ran to its end does not record the code of a no-op, so a failed one changed nothing but
the code. -/
theorem failedOperationsAreNoOps : Obligations.FailedOperationsAreNoOps := by
  intro w s t _ hexec hended hcode
  obtain ⟨r, hr, hform⟩ := execDescriptor_form w s
  obtain rfl : r = t := Host.Outcome.next.inj (hr.symm.trans hexec)
  obtain hfailed | ⟨m, hran⟩ := execForm_ended hform hended
  · exact hfailed
  · rw [code_mem_iff_isNoOp, hran, doneCode_isNoOp] at hcode
    nomatch hcode

/-! ### IllegalOperation (R221) -/

/-- An outcome that is no end with `IllegalOperation`. -/
def NotIllegal (r : Result) : Prop :=
  ∀ t, r = .next t → t.inProgress = none → t.last ≠ .illegalOperation

theorem raise_notIllegal {c : ResultCode} (hc : c ≠ .illegalOperation) (s : State) : NotIllegal (raise c s) := by
  intro t h _
  obtain rfl := raise_eq_next h
  exact hc

theorem done_notIllegal (s : State) : NotIllegal (done s) :=
  raise_notIllegal (c := .ok) (by decide) s

theorem runFramer_notIllegal (acts : List FramerAction) (m : Bool) (s : State) :
    NotIllegal (.next (runFramer acts m s)) := by
  intro t h hended
  obtain rfl := Host.Outcome.next.inj h
  obtain ⟨m', hlast⟩ := runFramer_ended hended
  refine ne_of_apply_ne ResultCode.isNoOp ?_
  rw [hlast, doneCode_isNoOp]
  decide

/-- Without a font the code is `InvalidReference` (R162). -/
theorem withBoundFont_notIllegal {s : State} {k : Font → Result} (hk : ∀ f, NotIllegal (k f)) :
    NotIllegal (withBoundFont s k) := by
  by_cases hf : s.fontPtr = 0
  · rw [withBoundFont_unbound hf]
    exact raise_notIllegal (by decide) s
  · rw [withBoundFont_bound hf]
    exact hk _

/-- JUST tests its mode and nothing else (R169). -/
theorem execJust_notIllegal {mode : Byte} (hmode : mode.toNat ≤ 2) (w h : Coord) (s : State) :
    NotIllegal (execJust w h mode s) := by
  unfold execJust
  generalize mode.toNat = m at hmode
  match m with
  | 0 | 1 | 2 => exact done_notIllegal _
  | k + 3 => omega

/-- OPEN fails for its channel or for the lifecycle state (R194, R222). -/
theorem execOpen_notIllegal (v : Byte) (l : Coord) (p : Addr) (s : State) : NotIllegal (execOpen v l p s) := by
  by_cases hv : v = 0
  · subst hv
    exact raise_notIllegal (by decide) s
  by_cases hp : s.pstate = .closed
  · rw [execOpen_closed hv hp]
    exact runFramer_notIllegal _ _ _
  · rw [execOpen_open hv hp]
    exact raise_notIllegal (by decide) s

/-- SYNC fails for the lifecycle state only (R195). -/
theorem execSync_notIllegal (s : State) : NotIllegal (execSync s) := by
  by_cases hp : s.pstate = .ready
  · rw [execSync_ready hp]
    exact runFramer_notIllegal _ _ _
  · rw [execSync_notReady hp]
    exact raise_notIllegal (by decide) s

/-- CLOSE fails for the lifecycle state only (R196). -/
theorem execClose_notIllegal (v : Byte) (s : State) : NotIllegal (execClose v s) := by
  by_cases hp : s.pstate = .ready
  · obtain ⟨acts, _, hrun⟩ := execClose_ready hp v
    rw [hrun]
    exact runFramer_notIllegal _ _ _
  · rw [execClose_notReady hp]
    exact raise_notIllegal (by decide) s

/-- A well-formed operation is never illegal. -/
theorem exec_notIllegal {i : Instr} (hi : i.wellFormed = true) (s : State) : NotIllegal (exec i s) := by
  cases i with
  | setpx x y v => exact done_notIllegal _
  | line x0 y0 x1 y1 v => exact done_notIllegal _
  | rect x0 y0 x1 y1 v => exact done_notIllegal _
  | rectf x0 y0 x1 y1 v => exact done_notIllegal _
  | circ x0 y0 r v => exact done_notIllegal _
  | circf x0 y0 r v => exact done_notIllegal _
  | icon x y w h v p => exact done_notIllegal _
  | fill v => exact done_notIllegal _
  | clear => exact done_notIllegal _
  | setfont p => exact done_notIllegal _
  | glyph x y ch v => exact withBoundFont_notIllegal fun f => done_notIllegal _
  | wstr x y v l p => exact withBoundFont_notIllegal fun f => done_notIllegal _
  | strb l p => exact withBoundFont_notIllegal fun f => done_notIllegal _
  | just w h m => exact execJust_notIllegal (of_decide_eq_true hi) w h s
  | openDisplay v l p => exact execOpen_notIllegal v l p s
  | sync => exact execSync_notIllegal s
  | close v => exact execClose_notIllegal v s
  | reset v => nomatch hi

/-- An ill-formed operation raises `IllegalOperation`. -/
theorem exec_illFormed {i : Instr} (hi : i.wellFormed = false) (s : State) : exec i s = raise .illegalOperation s := by
  cases i with
  | just w h m => exact execJust_illegal (not_le.mp (of_decide_eq_false hi)) w h s
  | reset v => rfl
  | _ => nomatch hi

/-- Settles O51: a well-formed operation never ends with `IllegalOperation`, and an ill-formed one raises it. -/
theorem onlyIllFormedOperationsAreIllegal : Obligations.OnlyIllFormedOperationsAreIllegal := by
  intro i s t hexec
  refine ⟨fun hi _ hended => exec_notIllegal hi s t hexec hended, fun hi => ?_⟩
  obtain rfl := raise_eq_next ((exec_illFormed hi s).symm.trans hexec)
  rfl

end Sys2Proof.Machine
end

section
/-! SUPPORT. The statements on waiting (43_device_framer.md, 70_reset_and_hazards.md): for a descriptor, for the channel's
answer, and what an answer that comes does. -/

namespace Sys2Proof.Machine

/-! ### Steps that change nothing (R199, R229) -/

/-- A state whose step is itself is what every number of steps leads to. -/
theorem run_of_step_self {s : State} (h : step s = .next s) (k : Nat) : Host.Core.run core k s = .next s := by
  induction k with
  | zero => rfl
  | succ k ih =>
    have hcore : core.step s = .next s := h
    simpa only [Host.Core.run, hcore] using ih

/-- Settles O9: the step of a PAC with nothing to do answers the same state. -/
theorem waitingKeepsAllState : Obligations.WaitingKeepsAllState :=
  fun _ k hidle hend => run_of_step_self (step_waits hidle hend) k

/-- While the channel does not answer, the step of an operation in progress answers the same state. -/
theorem step_silent {s : State} {w : Framing} (hbusy : s.inProgress = some w) (hsilent : s.answers = []) :
    step s = .next s := by
  rw [step_in_progress hbusy, resumeFramer_waits hsilent, retire_busy hbusy]

/-- Settles O42: an operation without its answer stays as it is, and the register port is closed while it does. -/
theorem silentChannelHangsThePac : Obligations.SilentChannelHangsThePac :=
  fun _ _ hbusy hsilent => ⟨run_of_step_self (step_silent hbusy hsilent), readRegister_busy hbusy⟩

/-! ### The first frame of an operation (R192, R199) -/

/-- Settles O41: each operation is at its first frame, CLOSE after it has cleared the framebuffer. -/
theorem framerWaitsForTheFirstAnswer : Obligations.FramerWaitsForTheFirstAnswer := by
  intro s v l p hsilent
  refine ⟨fun hv hp => ?opens, fun hp => ?syncs, fun hp hv => ?cleans⟩
  case opens =>
    refine (execOpen_closed hv hp l p).trans (congrArg _ ?_)
    rw [runFramer_send_waits (s := s.withSession .initializing v) hsilent, frameBytesOf_init]
    simp [State.emit, State.withProgress, State.withSession, initFrame]
  case syncs =>
    refine (execSync_ready hp).trans (congrArg _ ?_)
    rw [runFramer_send_waits hsilent]
    rfl
  case cleans =>
    refine ⟨_, execClose_clean hv hp, ?_⟩
    rw [runFramer_blank, runFramer_send_waits (s := s.withFrame (fillAll s.cfg false)) hsilent]
    exact ⟨congrFun (fillAll_off_read s.cfg), rfl⟩

/-! ### An answer to the frame that waits (R30, R192) -/

/-- Settles O44: the step is the operation resumed from its answer, then retired. -/
theorem answeredOperationGoesOn : Obligations.AnsweredOperationGoesOn := by
  intro s w n more hbusy hanswer
  have hsame := resumeFramer_frame w s
  refine ⟨resumeFramer w s, ?_, ?_, hsame.program, hsame.position⟩
  · have hlatch : (n != w.awaited) = decide (n ≠ w.awaited) := by simp only [bne, beq_eq_decide, ne_eq, decide_not]
    rw [resumeFramer_answered hanswer, hlatch]
    rfl
  · rw [step_in_progress hbusy, retire_eq, hsame.position]

/-! ### How many answers an operation takes (R192, R199) -/

/-- A run of framer actions takes one answer for each of its frames: it ends when they are all there, and otherwise waits
with the result code not written. -/
theorem runFramer_takes_answers (acts : List FramerAction) (m : Bool) {s : State} (hidle : s.inProgress = none) :
    (runFramer acts m s).answers = s.answers.drop (acts.filter sendsFrame).length ∧
    (((acts.filter sendsFrame).length ≤ s.answers.length ∧ (runFramer acts m s).inProgress = none) ∨
      (s.answers.length < (acts.filter sendsFrame).length ∧ (runFramer acts m s).inProgress ≠ none ∧
        (runFramer acts m s).last = s.last)) := by
  induction acts generalizing m s with
  | nil => exact ⟨rfl, .inl ⟨Nat.zero_le _, hidle⟩⟩
  | cons a rest ih =>
    cases a with
    | blank => exact ih m (s := s.withFrame (fillAll s.cfg false)) hidle
    | ready => exact ih m (s := s.withSession .ready s.ch) hidle
    | release => exact ih m (s := (s.emit (.release s.ch)).withSession .closed 0) hidle
    | send f =>
      rw [List.filter_cons_of_pos rfl, List.length_cons]
      cases ha : s.answers with
      | nil =>
        rw [runFramer_send_waits ha]
        exact ⟨ha, .inr ⟨Nat.succ_pos _, Option.some_ne_none _, rfl⟩⟩
      | cons n more =>
        rw [runFramer_send_answered ha, List.length_cons, Nat.add_le_add_iff_right, Nat.add_lt_add_iff_right]
        exact ih _ (s := ((s.emit (.write s.ch (frameBytesOf s f))).withAnswers more).emit (.answer n)) hidle

/-- The operation in progress takes one answer for the frame that waits, and then those of its other frames. -/
theorem resumeFramer_takes_answers {s : State} {w : Framing} (hbusy : s.inProgress = some w) :
    (resumeFramer w s).answers = s.answers.drop ((w.remaining.filter sendsFrame).length + 1) ∧
    (((w.remaining.filter sendsFrame).length + 1 ≤ s.answers.length ∧ (resumeFramer w s).inProgress = none ∧
        ∃ m, (resumeFramer w s).last = doneCode m) ∨
      (s.answers.length < (w.remaining.filter sendsFrame).length + 1 ∧ (resumeFramer w s).inProgress ≠ none ∧
        (resumeFramer w s).last = s.last)) := by
  cases ha : s.answers with
  | nil =>
    rw [resumeFramer_waits ha, hbusy]
    exact ⟨ha, .inr ⟨Nat.succ_pos _, Option.some_ne_none _, rfl⟩⟩
  | cons n more =>
    rw [resumeFramer_answered ha, List.length_cons, Nat.add_le_add_iff_right, Nat.add_lt_add_iff_right]
    obtain ⟨htaken, hend⟩ := runFramer_takes_answers w.remaining (w.mismatch || n != w.awaited)
      (s := ((s.withProgress none).withAnswers more).emit (.answer n)) rfl
    exact ⟨htaken, hend.imp_left fun ⟨hcount, hended⟩ => ⟨hcount, hended, runFramer_ended hended⟩⟩

/-- Settles O45: the step is the operation resumed, and retiring it moves the position exactly when it has ended. -/
theorem enoughAnswersEndTheOperation : Obligations.EnoughAnswersEndTheOperation := by
  intro s w hbusy frames
  have hsame := resumeFramer_frame w s
  obtain ⟨htaken, hend⟩ := resumeFramer_takes_answers hbusy
  refine ⟨_, step_in_progress hbusy, (retire_program _).trans hsame.program, ?_⟩
  obtain ⟨hcount, hended, m, hlast⟩ | ⟨hcount, hwaits, hlast⟩ := hend
  · rw [retire_idle hended, if_pos hcount]
    refine ⟨htaken, hended, congrArg (· + 1) hsame.position, ?_⟩
    rw [State.withPosition_last, hlast]
    cases m
    · exact .inl rfl
    · exact .inr rfl
  · rw [retire_eq, if_neg hwaits, if_neg (Nat.not_le_of_lt hcount)]
    exact ⟨htaken, hwaits, hsame.position, hlast⟩

/-! ### Answers that come late (R8, R192) -/

/-- The state an operation comes to when more answers have come: an operation that waits goes on with them, and one that has
ended leaves them where they are. -/
def State.continuedWith (t : State) (b : List Nat) : State :=
  match t.inProgress with
  | none => t.withAnswers (t.answers ++ b)
  | some w => resumeFramer w (t.withAnswers b)

theorem continuedWith_ended {t : State} (h : t.inProgress = none) (b : List Nat) :
    t.continuedWith b = t.withAnswers (t.answers ++ b) := by
  simp only [State.continuedWith, h]

theorem continuedWith_waiting {t : State} {w : Framing} (h : t.inProgress = some w) (b : List Nat) :
    t.continuedWith b = resumeFramer w (t.withAnswers b) := by
  simp only [State.continuedWith, h]

/-- Framer actions come to the same state whether the answers `b` are there from the start or come when the run waits. -/
theorem runFramer_lateAnswers (acts : List FramerAction) (m : Bool) {s : State} (hidle : s.inProgress = none) (b : List Nat) :
    runFramer acts m (s.withAnswers (s.answers ++ b)) = (runFramer acts m s).continuedWith b := by
  induction acts generalizing m s with
  | nil => exact (continuedWith_ended (t := s.withLast (doneCode m)) hidle b).symm
  | cons a rest ih =>
    cases a with
    | blank => exact ih m (s := s.withFrame (fillAll s.cfg false)) hidle
    | ready => exact ih m (s := s.withSession .ready s.ch) hidle
    | release => exact ih m (s := (s.emit (.release s.ch)).withSession .closed 0) hidle
    | send f =>
      cases ha : s.answers with
      | nil =>
        rw [runFramer_send_waits ha, continuedWith_waiting rfl, List.nil_append]
        cases b with
        | nil =>
          rw [runFramer_send_waits rfl, resumeFramer_waits rfl]
          rfl
        | cons n more =>
          -- Taking the answer clears the operation in progress, and there was none.
          have hclear : s = s.withProgress none := by rw [State.withProgress, ← hidle]
          rw [runFramer_send_answered rfl, resumeFramer_answered rfl, hclear]
          rfl
      | cons n more =>
        rw [runFramer_send_answered ha, List.cons_append, runFramer_send_answered rfl]
        exact ih _ (s := ((s.emit (.write s.ch (frameBytesOf s f))).withAnswers more).emit (.answer n)) hidle

/-- An operation comes to the same state whether the answers `b` are there from the start or come when it waits. -/
def LateAnswersAlike (k : State → Result) : Prop :=
  ∀ (s t : State) (b : List Nat), s.inProgress = none → k s = .next t →
    k (s.withAnswers (s.answers ++ b)) = .next (t.continuedWith b)

/-- A failure does not look at the answers. -/
theorem raise_lateAnswers (c : ResultCode) : LateAnswersAlike (raise c) := by
  intro s t b hidle h
  obtain rfl := raise_eq_next h
  have hended : (s.withLast c).inProgress = none := hidle
  rw [continuedWith_ended hended]
  rfl

/-- An operation that neither reads nor takes an answer. -/
def AnswersUnread (k : State → Result) : Prop :=
  ∀ s l, ∃ t, k s = .next t ∧ k (s.withAnswers l) = .next (t.withAnswers l)

/-- A drawing operation makes the same calls of SetPixel whatever the answers. -/
theorem draw_answersUnread {ps : State → List Plot} (h : ∀ s l, ps (s.withAnswers l) = ps s) :
    AnswersUnread fun s => draw (ps s) s := by
  intro s l
  simp only [h]
  exact ⟨_, rfl, rfl⟩

/-- Whether a font is bound does not depend on the answers (R162). -/
theorem withBoundFont_answersUnread {k : State → Font → Result} (hk : ∀ f, AnswersUnread fun s => k s f) :
    AnswersUnread fun s => withBoundFont s (k s) := by
  intro s l
  by_cases hf : s.fontPtr = 0
  · exact ⟨_, withBoundFont_unbound hf _, withBoundFont_unbound (s := s.withAnswers l) hf _⟩
  · simp only [withBoundFont_bound hf, withBoundFont_bound (s := s.withAnswers l) hf]
    exact hk (loadFont s.asset s.fontPtr) s l

/-- GLYPH draws with the bound font (R166). -/
theorem execGlyph_answersUnread (x y : Coord) (ch v : Byte) : AnswersUnread (execGlyph x y ch v) := by
  refine withBoundFont_answersUnread fun f => ?_
  exact draw_answersUnread fun _ _ => rfl

/-- WSTR draws with the bound font (R167). -/
theorem execWstr_answersUnread (x y : Coord) (v : Byte) (l : Coord) (p : Addr) : AnswersUnread (execWstr x y v l p) := by
  refine withBoundFont_answersUnread fun f => ?_
  exact draw_answersUnread fun _ _ => rfl

/-- STRB measures with the bound font (R168). -/
theorem execStrb_answersUnread (l : Coord) (p : Addr) : AnswersUnread (execStrb l p) := by
  refine withBoundFont_answersUnread fun f => ?_
  exact fun _ _ => ⟨_, rfl, rfl⟩

/-- JUST looks at its mode and the bound's extent (R169). -/
theorem execJust_answersUnread (w h : Coord) (mode : Byte) : AnswersUnread (execJust w h mode) := by
  unfold execJust
  generalize mode.toNat = m
  match m with
  | 0 | 1 | 2 | _ + 3 => exact fun _ _ => ⟨_, rfl, rfl⟩

/-- Only OPEN, SYNC and CLOSE take answers. -/
theorem exec_answersUnread {i : Instr} (hi : usesChannel i = false) : AnswersUnread (exec i) := by
  cases i with
  | openDisplay v l p => cases hi
  | sync => cases hi
  | close v => cases hi
  | setpx x y v => exact draw_answersUnread fun _ _ => rfl
  | line x0 y0 x1 y1 v => exact draw_answersUnread fun _ _ => rfl
  | rect x0 y0 x1 y1 v => exact draw_answersUnread fun _ _ => rfl
  | rectf x0 y0 x1 y1 v => exact draw_answersUnread fun _ _ => rfl
  | circ x0 y0 r v => exact draw_answersUnread fun _ _ => rfl
  | circf x0 y0 r v => exact draw_answersUnread fun _ _ => rfl
  | icon x y w h v p => exact draw_answersUnread fun _ _ => rfl
  | glyph x y ch v => exact execGlyph_answersUnread x y ch v
  | wstr x y v l p => exact execWstr_answersUnread x y v l p
  | strb l p => exact execStrb_answersUnread l p
  | just w h m => exact execJust_answersUnread w h m
  | fill v => exact fun _ _ => ⟨_, rfl, rfl⟩
  | clear => exact fun _ _ => ⟨_, rfl, rfl⟩
  | setfont p => exact fun _ _ => ⟨_, rfl, rfl⟩
  | reset v => exact fun _ _ => ⟨_, rfl, rfl⟩

/-- OPEN is in the same case whatever the answers (R194). -/
theorem execOpen_lateAnswers (v : Byte) (l : Coord) (p : Addr) : LateAnswersAlike (execOpen v l p) := by
  intro s t b hidle h
  by_cases hv : v = 0
  · subst hv
    exact raise_lateAnswers _ s t b hidle h
  by_cases hp : s.pstate = .closed
  · rw [execOpen_closed hv hp] at h
    obtain rfl := Host.Outcome.next.inj h
    rw [execOpen_closed (s := s.withAnswers (s.answers ++ b)) hv hp]
    exact congrArg _ (runFramer_lateAnswers _ _ (s := s.withSession .initializing v) hidle b)
  · rw [execOpen_open hv hp] at h
    rw [execOpen_open (s := s.withAnswers (s.answers ++ b)) hv hp]
    exact raise_lateAnswers _ s t b hidle h

/-- SYNC is in the same case whatever the answers (R195). -/
theorem execSync_lateAnswers : LateAnswersAlike execSync := by
  intro s t b hidle h
  by_cases hp : s.pstate = .ready
  · rw [execSync_ready hp] at h
    obtain rfl := Host.Outcome.next.inj h
    rw [execSync_ready (s := s.withAnswers (s.answers ++ b)) hp, runFramer_lateAnswers _ _ hidle]
  · rw [execSync_notReady hp] at h
    rw [execSync_notReady (s := s.withAnswers (s.answers ++ b)) hp]
    exact raise_lateAnswers _ s t b hidle h

/-- CLOSE is in the same case whatever the answers (R196). -/
theorem execClose_lateAnswers (v : Byte) : LateAnswersAlike (execClose v) := by
  intro s t b hidle h
  by_cases hp : s.pstate = .ready
  · by_cases hv : v = 0
    · subst hv
      rw [execClose_keep hp] at h
      obtain rfl := Host.Outcome.next.inj h
      rw [execClose_keep (s := s.withAnswers (s.answers ++ b)) hp, runFramer_lateAnswers _ _ hidle]
    · rw [execClose_clean hv hp] at h
      obtain rfl := Host.Outcome.next.inj h
      rw [execClose_clean (s := s.withAnswers (s.answers ++ b)) hv hp, runFramer_lateAnswers _ _ hidle]
  · rw [execClose_notReady hp] at h
    rw [execClose_notReady (s := s.withAnswers (s.answers ++ b)) hp]
    exact raise_lateAnswers _ s t b hidle h

/-- No operation depends on when its answers come. -/
theorem exec_lateAnswers (i : Instr) : LateAnswersAlike (exec i) := by
  cases hi : usesChannel i with
  | false =>
    intro s t b hidle h
    obtain ⟨r, hr, hlate⟩ := exec_answersUnread hi s (s.answers ++ b)
    obtain ⟨r', hr', -, -, -, hanswers, hprog, -⟩ := exec_offChannel hi s
    obtain rfl := Host.Outcome.next.inj (hr.symm.trans h)
    obtain rfl := Host.Outcome.next.inj (hr'.symm.trans h)
    rw [hlate, continuedWith_ended (hprog.trans hidle), hanswers]
  | true =>
    cases i with
    | openDisplay v l p => exact execOpen_lateAnswers v l p
    | sync => exact execSync_lateAnswers
    | close v => exact execClose_lateAnswers v
    | _ => nomatch hi

theorem execDescriptor_lateAnswers (w : Descriptor) : LateAnswersAlike (execDescriptor w) := by
  unfold execDescriptor
  cases decode w with
  | ok i => exact exec_lateAnswers i
  | error r => exact raise_lateAnswers .illegalOperation

/-- A step that takes a descriptor with all the answers there ends where the step with the first of them does, gone on with
by another step if it waits. -/
theorem step_lateAnswers {s t : State} (hidle : s.inProgress = none) (h : step s = .next t) (b : List Nat) :
    (t.inProgress = none ∧ step (s.withAnswers (s.answers ++ b)) = .next (t.withAnswers (t.answers ++ b))) ∨
    (t.inProgress ≠ none ∧ step (s.withAnswers (s.answers ++ b)) = step (t.withAnswers b)) := by
  by_cases hend : s.program.length ≤ s.position
  · obtain rfl := Host.Outcome.next.inj ((step_waits hidle hend).symm.trans h)
    exact .inl ⟨hidle, step_waits (s := s.withAnswers (s.answers ++ b)) hidle hend⟩
  have hfetch := List.getElem?_eq_getElem (not_le.mp hend)
  obtain ⟨r, hr, -⟩ := execDescriptor_form s.program[s.position] s
  rw [step_takes hidle hfetch, hr] at h
  obtain rfl := Host.Outcome.next.inj h
  rw [step_takes (s := s.withAnswers (s.answers ++ b)) hidle hfetch, execDescriptor_lateAnswers _ s r b hidle hr,
    retireResult]
  cases hprog : r.inProgress with
  | none =>
    have hended : (r.withAnswers (r.answers ++ b)).inProgress = none := hprog
    rw [continuedWith_ended hprog, retire_idle hended, retire_idle hprog]
    exact .inl ⟨hprog, rfl⟩
  | some w =>
    rw [continuedWith_waiting hprog, retire_busy hprog]
    exact .inr ⟨by simp [hprog], (step_in_progress (s := r.withAnswers b) hprog).symm⟩

/-- Settles O43: the operation with `a` is one from a state with the answers `a`, to which `b` is added. -/
theorem lateAnswersChangeNothing : Obligations.LateAnswersChangeNothing := by
  refine ⟨fun i s t a b hidle h => exec_lateAnswers i (s.withAnswers a) t b hidle h, fun s t a b hidle h => ?_⟩
  obtain ⟨hended, hstep⟩ | ⟨hwaits, hstep⟩ := step_lateAnswers (s := s.withAnswers a) hidle h b
  · rw [hended]
    exact hstep
  · obtain ⟨w, hw⟩ := Option.ne_none_iff_exists'.mp hwaits
    rw [hw]
    exact hstep

end Sys2Proof.Machine
end

section
/-! SUPPORT. The statements on the two resets: the reserved operation (30_encoding.md) and the platform's reset
(70_reset_and_hazards.md). -/

namespace Sys2Proof.Machine

/-! ### RESET (R86, R197, R221) -/

/-- Settles O40: the descriptor decodes, its operation raises, and the step retires it. -/
theorem resetIsAnIllegalNoOp : Obligations.ResetIsAnIllegalNoOp := by
  have hdecode : ∀ w, fieldOp w = 0x33 → decode w = .ok (.reset (fieldV w)) := fun w hop => by rw [decode, hop]; rfl
  have hexec : ∀ (s : State) (v : Byte), exec (.reset v) s = .next { s with last := .illegalOperation } := fun _ _ => rfl
  refine ⟨hdecode, hexec, fun s w hop hidle hfetch => ?_⟩
  rw [stepRunsTheDecodedOperation s w _ hidle hfetch (hdecode w hop), hexec]
  exact congrArg _ (if_pos hidle)

/-! ### The platform's reset (R240) -/

/-- An abandoned operation leaves its descriptor behind, which is one of the host's list. -/
theorem platformReset_position {s : State} (h : PositionInv s) : PositionInv (platformReset s) := by
  obtain ⟨hpos, hbusyPos⟩ := h
  refine ⟨?_, fun hbusy => absurd rfl hbusy⟩
  show (if s.inProgress.isSome then s.position + 1 else s.position) ≤ s.program.length
  split
  case isTrue hbusy => exact hbusyPos (Option.isSome_iff_ne_none.mp hbusy)
  case isFalse => exact hpos

/-- The invariant holds after a platform reset: the framebuffer is a draw of its own length, nothing is bound. -/
theorem platformReset_inv {s : State} (h : Inv s) : Inv (platformReset s) := by
  obtain ⟨⟨-, -, hasset⟩, -, -, hpos⟩ := h
  have hmem : MemoryInv (platformReset s) := ⟨memory_ofFn_wf _ _, memory_ofFn_within _ _, hasset⟩
  have hsession : SessionInv (platformReset s) :=
    ⟨iff_of_false (not_not_intro rfl) (not_not_intro rfl), fun _ => nofun, fun _ => nofun⟩
  have hbounds : BoundsInv (platformReset s) := ⟨Nat.zero_le _, Nat.zero_le _⟩
  exact ⟨hmem, hsession, hbounds, platformReset_position hpos⟩

/-- Settles O55: the registers are the values written for a reset, and the framebuffer reads as its fresh draw. -/
theorem platformResetIsAReset : Obligations.PlatformResetIsAReset := by
  intro s hinv
  refine ⟨platformReset_inv hinv, rfl, rfl, rfl, rfl, rfl, rfl, rfl, rfl, rfl, rfl, rfl, fun a ha => ?_⟩
  exact (memory_read_ofFn _ _ a).trans (if_pos ha)

end Sys2Proof.Machine
end
